-- ==== Sys2Proof/Word.lean ====
section
/-! DEFINITION. The word types of the block: their widths are those of 00_scope.md R8. -/

namespace Sys2Proof

/-- A segment byte, a character code or a wire byte (8 bits; 30_encoding.md R48, R50, R52). -/
abbrev Byte := BitVec 8

/-- A position or a cursor value: `POSW = 8` bits, unsigned (00_scope.md R8, decision D4). -/
abbrev Pos := BitVec 8

/-- The output of the encoder ROM: 7 bits, one per segment (40_segment_encoder.md R61). -/
abbrev Pattern := BitVec 7

/-- A host command word `cmd[10:0] = {op[2:0], arg[7:0]}` (30_encoding.md R44, decision D3). -/
abbrev CmdWord := BitVec 11

/-- The blank pattern `0b0000000` (00_scope.md, glossary). -/
def blankPattern : Pattern := 0#7

/-- The character code of the point, `'.'` (30_encoding.md R48, class POINT). -/
def pointCode : Byte := 0x2E#8

end Sys2Proof
end

