-- ==== Sys2Proof/Config.lean ====
section
/-! DEFINITION. What an implementation fixes (00_scope.md section 4, 70_reset_and_hazards.md R129 and R130): the parameters N,
INTENSITY, T, T_CYCLES, F_CLK and the encoder ROM. The spec gives none of them a value (93_implementation_defined.md U1, U15), so
each rests on a constant without a body. -/

namespace Sys2Proof

/-- What `N` is made from; `Config.params` turns 0, which is no display length, into 1. -/
opaque Config.rawLength : BitVec 8

/-- `INTENSITY` (00_scope.md R5): any value of 0..7, the source states no default. -/
opaque Config.intensity : BitVec 3

/-- The default of `T`, 100 microseconds, in nanoseconds (00_scope.md R6). -/
def Config.defaultDelay : Nat := 100000

/-- The configured `T` in nanoseconds, less one, so that `T > 0` (00_scope.md R6); `none` where the configuration gives none. -/
opaque Config.delay : Option Nat

/-- `T` in nanoseconds: the configured one, or the default (00_scope.md R6: "a configuration argument with default 100 µs"). -/
def Config.delayNanos : Option Nat → Nat
  | some d => d + 1
  | none => Config.defaultDelay

/-- The period of `clk` in nanoseconds, less one (`F_CLK`, 00_scope.md R8: left open). -/
opaque Config.rawPeriod : Nat

/-- How many clock periods more than necessary the implementation waits (00_scope.md R6: `T` is a lower bound only). -/
opaque Config.slackCycles : Nat

/-- The words of the encoder ROM that the source does not list (00_scope.md R7, 40_segment_encoder.md R64), by ROM address.
The two pinned words of R63 are supplied by `Sys2Proof.Machine.romRead`, which never asks for them here. -/
opaque Config.romWord : Nat → BitVec 7

/-- The parameters of one block (00_scope.md, summary table). `n` is `N`, the display length (R4); `tNanos`
is `T`, with its default, and `periodNanos` the clock period `1 / F_CLK`, both in nanoseconds; `tCycles` is `T_CYCLES` (R6). -/
structure Params where
  n : BitVec 8
  intensity : BitVec 3
  tNanos : Nat := Config.defaultDelay
  periodNanos : Nat
  tCycles : Nat
  deriving DecidableEq, Repr

/-- What must hold of a configuration (70_reset_and_hazards.md R130; 00_scope.md R6): `1 ≤ N` (`N ≤ 255` and `0 ≤ INTENSITY ≤ 7` hold
by width), `T > 0`, `T_CYCLES ≥ 1` and `T_CYCLES × (clock period) ≥ T`. -/
abbrev Params.Valid (p : Params) : Prop :=
  1 ≤ p.n.toNat ∧ 0 < p.tNanos ∧ 0 < p.periodNanos ∧ 1 ≤ p.tCycles ∧ p.tNanos ≤ p.tCycles * p.periodNanos

/-- The least number of clock periods that lasts at least `t` nanoseconds. -/
def leastCycles (t period : Nat) : Nat := (t + period - 1) / period

/-- The parameters of the block that `State.reset` describes: every valid choice, none singled out. -/
def Config.params : Params where
  n := if Config.rawLength = 0#8 then 1#8 else Config.rawLength
  intensity := Config.intensity
  tNanos := Config.delayNanos Config.delay
  periodNanos := Config.rawPeriod + 1
  tCycles := leastCycles (Config.delayNanos Config.delay) (Config.rawPeriod + 1) + Config.slackCycles

end Sys2Proof
end

