-- ==== Sys2Proof/Syntax.lean ====
section
/-! DEFINITION. The instructions: one constructor per row of spec/opcode_table.json, in the table's order, and the three formats in
which a row can be presented (30_encoding.md sections 1, 2 and 4). -/

namespace Sys2Proof

/-- The rows of spec/opcode_table.json. Host command words keep their ignored argument bits (30_encoding.md R47), so that no bit of
a word is lost; a character row keeps the whole code `c[7:0]`, as the table's fields do (`WellFormed` says which codes are the row's);
a row with no free bit has no operand. -/
inductive Instr where
  -- host command words, 11 bits (30_encoding.md R44, R46)
  | init (arg : Byte)
  | clear (arg : Byte)
  | pbegin (p : Pos)
  | putc (c : Byte)
  | display (arg : Byte)
  | reserved101 (arg : Byte)
  | reserved11x (arg : BitVec 9)
  -- character codes, 8 bits (30_encoding.md R48)
  | blank00to1F (c : Byte)
  | glyph20to27 (c : Byte)
  | glyph28to2B (c : Byte)
  | glyph2Cto2D (c : Byte)
  | point2E
  | glyph2F
  | glyph30to3F (c : Byte)
  | glyph40to5F (c : Byte)
  | glyph60to6F (c : Byte)
  | glyph70to77 (c : Byte)
  | glyph78to7B (c : Byte)
  | glyph7Cto7D (c : Byte)
  | glyph7E
  | blank7F
  | blank80toFF (c : Byte)
  -- wire command bytes, 8 bits (30_encoding.md R53 to R55)
  | cmdDataAutoinc
  | cmdAddrFirst
  | cmdDisplayCtrl (i : BitVec 3)
  | cmd0x44
  deriving DecidableEq, Repr

/-- A unit presented to the block, with its format. The host presents `host` words only (30_encoding.md R45); `char` and `wire` units
let the table's other two formats be run by themselves. DESIGN CHOICE (safe: more runs than the hardware has), log entry 5. -/
inductive OpWord where
  | host (cmd : CmdWord)
  | char (c : Byte)
  | wire (b : Byte)
  deriving DecidableEq, Repr

/-- The unit is one the hardware's host can present. -/
def OpWord.isHost : OpWord → Bool
  | .host _ => true
  | .char _ => false
  | .wire _ => false

end Sys2Proof
end

