-- ==== Sys2Proof/WellFormed.lean ====
section
/-! DEFINITION. Which instructions are well formed: a character row with a code of that row (the mask and match of
spec/opcode_table.json). -/

namespace Sys2Proof

/-- `v` lies in the row with this mask and match. -/
def inRow {w : Nat} (mask mtch v : BitVec w) : Bool := (v &&& mask) == mtch

/-- The mask and match of a character row's code. Every other operand may hold any value of its width. -/
def Instr.wellFormed : Instr → Bool
  | .init _ => true
  | .clear _ => true
  | .pbegin _ => true
  | .putc _ => true
  | .display _ => true
  | .reserved101 _ => true
  | .reserved11x _ => true
  | .blank00to1F c => inRow 0xE0#8 0x00#8 c
  | .glyph20to27 c => inRow 0xF8#8 0x20#8 c
  | .glyph28to2B c => inRow 0xFC#8 0x28#8 c
  | .glyph2Cto2D c => inRow 0xFE#8 0x2C#8 c
  | .point2E => true
  | .glyph2F => true
  | .glyph30to3F c => inRow 0xF0#8 0x30#8 c
  | .glyph40to5F c => inRow 0xE0#8 0x40#8 c
  | .glyph60to6F c => inRow 0xF0#8 0x60#8 c
  | .glyph70to77 c => inRow 0xF8#8 0x70#8 c
  | .glyph78to7B c => inRow 0xFC#8 0x78#8 c
  | .glyph7Cto7D c => inRow 0xFE#8 0x7C#8 c
  | .glyph7E => true
  | .blank7F => true
  | .blank80toFF c => inRow 0x80#8 0x80#8 c
  | .cmdDataAutoinc => true
  | .cmdAddrFirst => true
  | .cmdDisplayCtrl _ => true
  | .cmd0x44 => true

end Sys2Proof
end

