-- ==== Sys2Proof/Decode.lean ====
section
/-! DEFINITION. Decoding: total on every unit of the three formats, refusing by name; the encoder, written from the same tables
(30_encoding.md R44 to R48, R53 to R55); and the opcode table's rows as data. -/

namespace Sys2Proof

/-- Why a unit has no instruction. -/
inductive DecodeError where
  /-- A byte presented as a wire command that is none of the four rows of 30_encoding.md R53 and R55. Safe: no step is taken. -/
  | notAWireCommand (b : Byte)
  /-- Bits above the 11 of a host command word are set: no word of the block has them (30_encoding.md R44). Safe. -/
  | bitsAboveWord (w : Nat)
  /-- The table has rows of 8 and of 11 bits only. Safe. -/
  | noSuchWidth (nbits : Nat)
  deriving DecidableEq, Repr

/-- The opcode field `cmd[10:8]` (30_encoding.md R44). -/
def CmdWord.op (w : CmdWord) : BitVec 3 := w.extractLsb' 8 3

/-- The argument field `cmd[7:0]` (30_encoding.md R44). -/
def CmdWord.arg (w : CmdWord) : Byte := w.extractLsb' 0 8

/-- Host command words (30_encoding.md R44, R46): every one of the 2048 words has its row. -/
def decodeHost (w : CmdWord) : Instr :=
  if CmdWord.op w = 0#3 then .init (CmdWord.arg w)
  else if CmdWord.op w = 1#3 then .clear (CmdWord.arg w)
  else if CmdWord.op w = 2#3 then .pbegin (CmdWord.arg w)
  else if CmdWord.op w = 3#3 then .putc (CmdWord.arg w)
  else if CmdWord.op w = 4#3 then .display (CmdWord.arg w)
  else if CmdWord.op w = 5#3 then .reserved101 (CmdWord.arg w)
  else .reserved11x (w.extractLsb' 0 9)

/-- Character codes (30_encoding.md R48): every one of the 256 codes has its row. -/
def decodeChar (c : Byte) : Instr :=
  if inRow 0xE0#8 0x00#8 c then .blank00to1F c
  else if inRow 0xF8#8 0x20#8 c then .glyph20to27 c
  else if inRow 0xFC#8 0x28#8 c then .glyph28to2B c
  else if inRow 0xFE#8 0x2C#8 c then .glyph2Cto2D c
  else if inRow 0xFF#8 0x2E#8 c then .point2E
  else if inRow 0xFF#8 0x2F#8 c then .glyph2F
  else if inRow 0xF0#8 0x30#8 c then .glyph30to3F c
  else if inRow 0xE0#8 0x40#8 c then .glyph40to5F c
  else if inRow 0xF0#8 0x60#8 c then .glyph60to6F c
  else if inRow 0xF8#8 0x70#8 c then .glyph70to77 c
  else if inRow 0xFC#8 0x78#8 c then .glyph78to7B c
  else if inRow 0xFE#8 0x7C#8 c then .glyph7Cto7D c
  else if inRow 0xFF#8 0x7E#8 c then .glyph7E
  else if inRow 0xFF#8 0x7F#8 c then .blank7F
  else .blank80toFF c

/-- Wire command bytes (30_encoding.md R53 to R55). -/
def decodeWire (b : Byte) : Option Instr :=
  if inRow 0xFF#8 0x40#8 b then some .cmdDataAutoinc
  else if inRow 0xFF#8 0xC0#8 b then some .cmdAddrFirst
  else if inRow 0xF8#8 0x88#8 b then some (.cmdDisplayCtrl (b.extractLsb' 0 3))
  else if inRow 0xFF#8 0x44#8 b then some .cmd0x44
  else none

/-- The decoder of one presented unit. -/
def decode : OpWord → Except DecodeError Instr
  | .host w => .ok (decodeHost w)
  | .char c => .ok (decodeChar c)
  | .wire b => match decodeWire b with
    | some i => .ok i
    | none => .error (.notAWireCommand b)

/-- The encoder, from the encoding tables of 30_encoding.md sections 1, 2 and 4. -/
def encode : Instr → OpWord
  | .init arg => .host (0#3 ++ arg)
  | .clear arg => .host (1#3 ++ arg)
  | .pbegin p => .host (2#3 ++ p)
  | .putc c => .host (3#3 ++ c)
  | .display arg => .host (4#3 ++ arg)
  | .reserved101 arg => .host (5#3 ++ arg)
  | .reserved11x arg => .host (3#2 ++ arg)
  | .blank00to1F c => .char c
  | .glyph20to27 c => .char c
  | .glyph28to2B c => .char c
  | .glyph2Cto2D c => .char c
  | .point2E => .char 0x2E#8
  | .glyph2F => .char 0x2F#8
  | .glyph30to3F c => .char c
  | .glyph40to5F c => .char c
  | .glyph60to6F c => .char c
  | .glyph70to77 c => .char c
  | .glyph78to7B c => .char c
  | .glyph7Cto7D c => .char c
  | .glyph7E => .char 0x7E#8
  | .blank7F => .char 0x7F#8
  | .blank80toFF c => .char c
  | .cmdDataAutoinc => .wire 0x40#8
  | .cmdAddrFirst => .wire 0xC0#8
  | .cmdDisplayCtrl i => .wire (0b10001#5 ++ i)
  | .cmd0x44 => .wire 0x44#8

/-- The mask and match of the seven host-command rows of spec/opcode_table.json, in its order. -/
def hostRows : List (CmdWord × CmdWord) :=
  [(0x700#11, 0x000#11), (0x700#11, 0x100#11), (0x700#11, 0x200#11), (0x700#11, 0x300#11), (0x700#11, 0x400#11),
   (0x700#11, 0x500#11), (0x600#11, 0x600#11)]

/-- The mask and match of the fifteen character rows of spec/opcode_table.json, in its order. -/
def charRows : List (Byte × Byte) :=
  [(0xE0#8, 0x00#8), (0xF8#8, 0x20#8), (0xFC#8, 0x28#8), (0xFE#8, 0x2C#8), (0xFF#8, 0x2E#8)]
  ++ [(0xFF#8, 0x2F#8), (0xF0#8, 0x30#8), (0xE0#8, 0x40#8), (0xF0#8, 0x60#8), (0xF8#8, 0x70#8)]
  ++ [(0xFC#8, 0x78#8), (0xFE#8, 0x7C#8), (0xFF#8, 0x7E#8), (0xFF#8, 0x7F#8), (0x80#8, 0x80#8)]

/-- The mask and match of the four wire-command rows of spec/opcode_table.json, in its order. -/
def wireRows : List (Byte × Byte) :=
  [(0xFF#8, 0x40#8), (0xFF#8, 0xC0#8), (0xF8#8, 0x88#8), (0xFF#8, 0x44#8)]

/-- How many rows of a format a word lies in. -/
def rowsMatching {w : Nat} (rows : List (BitVec w × BitVec w)) (v : BitVec w) : Nat :=
  (rows.filter fun r => inRow r.1 r.2 v).length

/-- The place of an instruction's row among the rows of its format, counted from 0 in the table's order. -/
def Instr.rowIndex : Instr → Nat
  | .init _ => 0
  | .clear _ => 1
  | .pbegin _ => 2
  | .putc _ => 3
  | .display _ => 4
  | .reserved101 _ => 5
  | .reserved11x _ => 6
  | .blank00to1F _ => 0
  | .glyph20to27 _ => 1
  | .glyph28to2B _ => 2
  | .glyph2Cto2D _ => 3
  | .point2E => 4
  | .glyph2F => 5
  | .glyph30to3F _ => 6
  | .glyph40to5F _ => 7
  | .glyph60to6F _ => 8
  | .glyph70to77 _ => 9
  | .glyph78to7B _ => 10
  | .glyph7Cto7D _ => 11
  | .glyph7E => 12
  | .blank7F => 13
  | .blank80toFF _ => 14
  | .cmdDataAutoinc => 0
  | .cmdAddrFirst => 1
  | .cmdDisplayCtrl _ => 2
  | .cmd0x44 => 3

/-- A unit lies in row number `k` of its own format's rows. -/
def OpWord.inRowAt (p : OpWord) (k : Nat) : Bool :=
  match p with
  | .host w => match hostRows[k]? with
    | some r => inRow r.1 r.2 w
    | none => false
  | .char c => match charRows[k]? with
    | some r => inRow r.1 r.2 c
    | none => false
  | .wire b => match wireRows[k]? with
    | some r => inRow r.1 r.2 b
    | none => false

/-- The unit that the bits `w` of a table row of `nbits` bits are. A host command word is 11 bits, or 16 in whole bytes with its
top five bits clear. The table gives character and wire rows the same 8 bits: the bytes of the four wire rows are taken as wire
commands and every other byte as a character code (a character reaches the block inside a PUTC word in any case, whatever its code).
DESIGN CHOICE, safe: log entry 5. -/
def tableWord (nbits w : Nat) : Except DecodeError OpWord :=
  if nbits = 8 then
    if w < 256 then
      match decodeWire (BitVec.ofNat 8 w) with
      | some _ => .ok (.wire (BitVec.ofNat 8 w))
      | none => .ok (.char (BitVec.ofNat 8 w))
    else .error (.bitsAboveWord w)
  else if nbits = 11 ∨ nbits = 16 then
    if w < 2048 then .ok (.host (BitVec.ofNat 11 w)) else .error (.bitsAboveWord w)
  else .error (.noSuchWidth nbits)

/-- The decoder on the bits of a table row, or the reason it has none. -/
def decodeBits (nbits w : Nat) : Except DecodeError Instr :=
  match tableWord nbits w with
  | .ok p => decode p
  | .error e => .error e

/-- The instruction the decoder reads from a table row's bits, numbered as spec/opcode_table.json numbers them. -/
def decodeTableWord (nbits w : Nat) : Option Instr :=
  match decodeBits nbits w with
  | .ok i => some i
  | .error _ => none

end Sys2Proof
end

