-- ==== Sys2Proof/Machine/State.lean ====
section
/-! DEFINITION. The state of the block (10_state.md R10), as plain data, its reset value (10_state.md R27) and the reasons a step
can stop. -/

namespace Sys2Proof.Machine

/-- The level of a line (00_scope.md section 5: `Low` = 0, `High` = 1). -/
inductive Level where
  | low
  | high
  deriving DecidableEq, Repr

/-- A wire event (00_scope.md section 5, 10_state.md R24): `C0`, `C1` drive CLOCK, `D0`, `D1` drive DATA, `W` is `wait(T)`, `L0`
drives both lines low at setup. -/
inductive WireEvent where
  | l0
  | c0
  | c1
  | d0
  | d1
  | w
  deriving DecidableEq, Repr

/-- The phases of the serializer, one per wait of 42_protocol_driver.md R84 to R86 (10_state.md R16). -/
inductive Phase where
  | start0
  | b0
  | b1
  | b2
  | b3
  | settle
  | stop0
  | stop1
  | stop2
  deriving DecidableEq, Repr

/-- The transactions of a refresh cycle (42_protocol_driver.md R90): 0 `TXN_MODE`, 1 `TXN_DATA`, 2 `TXN_CTRL`. -/
inductive Txn where
  | mode
  | data
  | ctrl
  deriving DecidableEq, Repr

/-- The serializer's position `(txn, byte, bit, phase)` (10_state.md R16) but for `bit`, which is the counter `bitcnt` of 10_state.md
R21, a register of its own (`State.bitcnt`); `State.seqTuple` is the whole tuple. -/
structure SeqPos where
  txn : Txn
  byte : Nat
  phase : Phase
  deriving DecidableEq, Repr

/-- The Framebuffer as the block's one memory: (index, byte) pairs, indices strictly rising, no byte equal to what an unlisted index
reads as (`Memory.wf` says so). -/
abbrev Memory := List Host.Cell

/-- Why the machine stops with a fault. The block has no fault state (60_exceptions.md R114). -/
inductive Fault where
  /-- A Framebuffer access at an index that does not exist, `index ≥ N` (20_memory.md R36): raised by `State.readCell` and
  `State.writeCell`. Safe: the model stops where no hardware goes. No instruction raises it. -/
  | noSuchCell (index : Nat)
  deriving DecidableEq, Repr

/-- Why an operation has no meaning. -/
inductive Refusal where
  /-- An instruction whose meaning is not written yet: raised by `exec`'s refused arms only. Safe. -/
  | notModelled (mnemonic : String)
  /-- An operation other than INIT while `inited = 0` (70_reset_and_hazards.md R131 (a)): raised by every such meaning through
  `State.whenInited`. Safe: the spec gives it no meaning. -/
  | notInitialised
  /-- INIT while `inited = 1` (70_reset_and_hazards.md R131 (b), 43_refresh_orchestration.md R102): raised by `execInit`. Safe. -/
  | alreadyInitialised
  /-- A command word with a reserved opcode (70_reset_and_hazards.md R131 (c), 30_encoding.md R46): raised by `execReserved101` and
  `execReserved11x`. Safe. -/
  | reservedOpcode (op : BitVec 3)
  /-- The wire byte 0x44, to which the source gives no role (30_encoding.md R55): raised by `execCmd0x44`. Safe. -/
  | noWireRole (b : Byte)
  /-- A presented unit that decodes to no instruction: raised by `step`. Safe. -/
  | undecodable (e : DecodeError)
  deriving DecidableEq, Repr

/-- The complete state of the block (10_state.md R10) and its inputs. -/
structure State where
  /-- The Framebuffer cells (10_state.md R11). -/
  fb : Memory
  /-- The start position of the current print operation (10_state.md R14). -/
  start : Pos
  /-- The cursor (10_state.md R14). -/
  cursor : Pos
  /-- The overflow flag (10_state.md R17). -/
  ovf : Bool
  /-- The brightness register (10_state.md R18). -/
  intensity : BitVec 3
  /-- The CLOCK output register (10_state.md R19). -/
  clockO : Level
  /-- The DATA output register (10_state.md R19). -/
  dataO : Level
  /-- The block drives the lines (10_state.md R19). -/
  lineOe : Bool
  /-- Setup has happened (10_state.md R20). -/
  inited : Bool
  /-- The serializer's shift register (10_state.md R21). -/
  sh : Byte
  /-- The counter of the 8 bits of a transfer, the `bit` component of `seq` (10_state.md R16, R21). -/
  bitcnt : BitVec 3
  /-- The delay counter (10_state.md R22, 70_reset_and_hazards.md R142). -/
  dly : Nat
  /-- The serializer's position, `none` when idle (10_state.md R16, R27). -/
  seq : Option SeqPos
  /-- An operation is in progress (10_state.md R23). -/
  busy : Bool
  /-- The wire trace, oldest first (10_state.md R24). -/
  trace : List WireEvent
  /-- The frame view, the ghost list that TXN appends to (42_protocol_driver.md R96). -/
  frames : List (List Byte)
  /-- The parameters this block was built with (00_scope.md section 4); nothing writes them. DESIGN CHOICE, log entry 2. -/
  params : Params
  /-- The operations the host presents, the next one first (30_encoding.md R45, 70_reset_and_hazards.md R145). The model's own. -/
  pending : List OpWord
  /-- The level of the reset input (70_reset_and_hazards.md R126). -/
  rst : Bool
  deriving DecidableEq, Repr

/-- The block with parameters `p` right after reset: the table of 10_state.md R27. The spec leaves `clockO`, `dataO`, `sh`, `bitcnt`
and `dly` unspecified; their values here are DESIGN CHOICE, unsafe, log entry 4. -/
def State.resetWith (p : Params) : State where
  fb := []
  start := 0#8
  cursor := 0#8
  ovf := false
  intensity := p.intensity
  clockO := .low
  dataO := .low
  lineOe := false
  inited := false
  sh := 0#8
  bitcnt := 0#3
  dly := 0
  seq := none
  busy := false
  trace := []
  frames := []
  params := p
  pending := []
  rst := false

/-- The machine right after reset (70_reset_and_hazards.md R126, R127), for whatever parameters it was built with. -/
def State.reset : State := State.resetWith Config.params

end Sys2Proof.Machine
end

