-- ==== Sys2Proof/Machine/Operands.lean ====
section
/-! DEFINITION. Operand assembly (30_encoding.md section 5) and the classes of character codes (30_encoding.md R48). -/

namespace Sys2Proof.Machine

/-- The three classes of character codes (30_encoding.md R48). -/
inductive CharClass where
  | point
  | glyph
  | blank
  deriving DecidableEq, Repr

/-- The code is one the ROM has a word for, `0x20 ≤ c ≤ 0x7E` (20_memory.md R29). -/
def inRomRange (c : Byte) : Bool := 0x20 ≤ c.toNat && c.toNat ≤ 0x7E

/-- The class test by range comparison (30_encoding.md R48). -/
def charClass (c : Byte) : CharClass :=
  if c = pointCode then .point else if inRomRange c then .glyph else .blank

/-- ROM address formation, `c − 0x20` (30_encoding.md R49). -/
def romAddress (c : Byte) : Nat := c.toNat - 0x20

/-- The byte a pattern is written as: bit 7 clear (30_encoding.md R50, 41_text_formatter.md R81, decision D10). -/
def segmentByte (p : Pattern) : Byte := p.zeroExtend 8

/-- The mask of the point bit (30_encoding.md R50). -/
def pointMask : Byte := 0x80#8

/-- A cell with its point bit set (30_encoding.md section 5: `old | 0x80`). -/
def withPoint (old : Byte) : Byte := old ||| pointMask

/-- The "data-write, auto-increment address" command byte (30_encoding.md R53). -/
def modeByte : Byte := 0x40#8

/-- The "set address to first digit" command byte (30_encoding.md R53). -/
def addressByte : Byte := 0xC0#8

/-- The display-control byte `0x80 | (I & 0x7) | 0x08` (30_encoding.md R54). -/
def controlByte (i : BitVec 3) : Byte := 0x80#8 ||| (i.zeroExtend 8 &&& 0x7#8) ||| 0x08#8

/-- The data bit that the shift register drives next, `sh[0]` (10_state.md R21). -/
def dataBit (sh : Byte) : Bool := sh.getLsbD 0

/-- The shift after a bit, `sh <- sh >> 1` (10_state.md R21). -/
def shifted (sh : Byte) : Byte := sh >>> 1

end Sys2Proof.Machine
end

