-- ==== Sys2Proof/Machine/Encoder.lean ====
section
/-! DEFINITION. The Segment Encoder and its ROM (40_segment_encoder.md). -/

namespace Sys2Proof.Machine

/-- `RomRead(a)`: the two words the source pins (40_segment_encoder.md R63) and, for every other address, the implementation's
(R64). -/
def romRead (a : Nat) : Pattern :=
  if a = 0x00 then 0b0000000#7 else if a = 0x10 then 0b0111111#7 else Config.romWord a

/-- `ENCODE(c)` (40_segment_encoder.md R62). -/
def encodeChar (c : Byte) : Pattern :=
  if inRomRange c then romRead (romAddress c) else blankPattern

end Sys2Proof.Machine
end

