-- ==== Sys2Proof/Machine/Wire.lean ====
section
/-! DEFINITION. The event sequences of the wire: START, STOP, the bit cell, SENDBYTE and TXN (42_protocol_driver.md R84 to R89,
30_encoding.md R52, R56), and what an event does to a line (10_state.md R24). -/

namespace Sys2Proof.Machine

/-- The level of CLOCK after an event. -/
def clockAfter (l : Level) : WireEvent → Level
  | .l0 => .low
  | .c0 => .low
  | .c1 => .high
  | .d0 => l
  | .d1 => l
  | .w => l

/-- The level of DATA after an event. -/
def dataAfter (l : Level) : WireEvent → Level
  | .l0 => .low
  | .c0 => l
  | .c1 => l
  | .d0 => .low
  | .d1 => .high
  | .w => l

/-- `D(b)`: the event that drives DATA to a bit (00_scope.md section 5). -/
def dataEvent (b : Bool) : WireEvent := if b then .d1 else .d0

/-- START (42_protocol_driver.md R84). -/
def startEvents : List WireEvent := [.d0, .w]

/-- STOP (42_protocol_driver.md R85). -/
def stopEvents : List WireEvent := [.d0, .w, .c1, .w, .d1, .w]

/-- The bit cell `C0 W D(b) W C1 W C0 W` (30_encoding.md R56). -/
def cellEvents (b : Bool) : List WireEvent := [.c0, .w, dataEvent b, .w, .c1, .w, .c0, .w]

/-- The cells of the `k` lowest bits of the shift register, which shifts right after each (42_protocol_driver.md R86). -/
def shiftOut : Nat → Byte → List WireEvent
  | 0, _ => []
  | k + 1, sh => cellEvents (dataBit sh) ++ shiftOut k (shifted sh)

/-- SENDBYTE (42_protocol_driver.md R86): eight cells, bit 0 first, then the trailing settle delay (R88). -/
def sendByteEvents (b : Byte) : List WireEvent := shiftOut 8 b ++ [.w]

/-- The byte transfers of a transaction, nothing between them (42_protocol_driver.md R89). -/
def bytesEvents : List Byte → List WireEvent
  | [] => []
  | b :: bs => sendByteEvents b ++ bytesEvents bs

/-- TXN (42_protocol_driver.md R89). -/
def txnEvents (bytes : List Byte) : List WireEvent := startEvents ++ bytesEvents bytes ++ stopEvents

end Sys2Proof.Machine
end

