-- ==== Sys2Proof/Machine/Ops.lean ====
section
/-! DEFINITION. The named operations over memory, registers and lines that the meanings are made of, and the one exceptional
condition: taking Overflow and returning from it (60_exceptions.md R117, R118). -/

namespace Sys2Proof.Machine

/-- What a Framebuffer cell that nothing has written reads as: the reset contents (10_state.md R27). -/
def blankByte : Byte := 0x00#8

/-- The byte at an index. -/
def Memory.read : Memory → Nat → Byte
  | [], _ => blankByte
  | (a, v) :: m, k => if a = k then v else Memory.read m k

/-- An entry in front of a memory, left out where it says what an unlisted index says. -/
def Memory.cons (k : Nat) (v : Byte) (m : Memory) : Memory := if v = blankByte then m else (k, v) :: m

/-- Write one byte, keeping the canonical form. -/
def Memory.write : Memory → Nat → Byte → Memory
  | [], k, v => Memory.cons k v []
  | (a, w) :: m, k, v =>
    if a < k then (a, w) :: Memory.write m k v
    else if a = k then Memory.cons k v m
    else Memory.cons k v ((a, w) :: m)

/-- Every listed index lies in `lo ≤ index`, the indices rise strictly, and no listed byte is the blank byte. -/
def Memory.wfFrom : Nat → Memory → Bool
  | _, [] => true
  | lo, (a, v) :: m => decide (lo ≤ a) && decide (v ≠ blankByte) && Memory.wfFrom (a + 1) m

/-- The canonical form. -/
def Memory.wf (m : Memory) : Bool := Memory.wfFrom 0 m

/-- `N`, the number of cells (00_scope.md R4), as a number. -/
def State.size (s : State) : Nat := s.params.n.toNat

/-- `fb[k]` as it reads, for any index (an index `≥ N` is never listed). -/
def State.cell (s : State) (k : Nat) : Byte := Memory.read s.fb k

/-- `MemRead(k, 1)` (00_scope.md section 5): an index that does not exist is a fault (20_memory.md R36). -/
def State.readCell (s : State) (k : Nat) : Except Fault Byte :=
  if k < s.size then .ok (s.cell k) else .error (.noSuchCell k)

/-- `fb[k] <- v`, for an index that exists. -/
def State.storeCell (s : State) (k : Nat) (v : Byte) : State := { s with fb := Memory.write s.fb k v }

/-- `MemWrite(k, 1, v)` (00_scope.md section 5): an index that does not exist is a fault (20_memory.md R36). -/
def State.writeCell (s : State) (k : Nat) (v : Byte) : Except Fault State :=
  if k < s.size then .ok (s.storeCell k v) else .error (.noSuchCell k)

/-- Every cell to 0x00 (41_text_formatter.md R68). -/
def State.clearCells (s : State) : State := { s with fb := [] }

/-- `fb[0], …, fb[N−1]` in index order (20_memory.md R33). -/
def State.cells (s : State) : List Byte := (List.range s.size).map s.cell

/-- The cursor register as an index. -/
def State.cursorIndex (s : State) : Nat := s.cursor.toNat

/-- `cursor <- k`. -/
def State.setCursor (s : State) (k : Nat) : State := { s with cursor := BitVec.ofNat 8 k }

/-- `start <- p; cursor <- p` (41_text_formatter.md R69). -/
def State.loadPrint (s : State) (p : Pos) : State := { s with start := p, cursor := p }

/-- TAKING THE CONDITION Overflow (60_exceptions.md R117): `ovf` is set, nothing else changes, nothing is saved and control goes
nowhere. -/
def State.raiseOverflow (s : State) : State := { s with ovf := true }

/-- RETURNING from Overflow (60_exceptions.md R118): the next print operation clears `ovf`. -/
def State.returnFromOverflow (s : State) : State := { s with ovf := false }

/-- The output `ret_o = cursor − start` (10_state.md R15, R26). -/
def State.ret (s : State) : Pos := s.cursor - s.start

/-- The output `ovf_o` (10_state.md R26). -/
def State.ovfOut (s : State) : Bool := s.ovf

/-- The output `inited_o` (10_state.md R26). -/
def State.initedOut (s : State) : Bool := s.inited

/-- The output `cmd_ready = not busy` (10_state.md R23, R26). -/
def State.cmdReady (s : State) : Bool := !s.busy

/-- The input `cmd_valid`: the host presents an operation (30_encoding.md R45). -/
def State.cmdValid (s : State) : Bool := !s.pending.isEmpty

/-- The tuple `seq = (txn, byte, bit, phase)` (10_state.md R16), whose `bit` component is the register `bitcnt` (R21). -/
def State.seqTuple (s : State) : Option (Txn × Nat × BitVec 3 × Phase) :=
  s.seq.map fun p => (p.txn, p.byte, s.bitcnt, p.phase)

/-- Append events to the wire trace and perform them on the output lines (00_scope.md section 5, `emit`). -/
def State.emit (s : State) (es : List WireEvent) : State :=
  { s with
    trace := s.trace ++ es
    clockO := es.foldl clockAfter s.clockO
    dataO := es.foldl dataAfter s.dataO }

/-- TXN(bytes) as one operation (42_protocol_driver.md R89): its events, its frame (R96), and what its last byte transfer and its last
wait leave in the serializer (`sh` is 0 after eight shifts, 10_state.md R21; `bitcnt` has wrapped to 0; `dly` has counted down to 0,
70_reset_and_hazards.md R142). DEDUCED, log entry 11. -/
def State.txn (s : State) (bytes : List Byte) : State :=
  { s.emit (txnEvents bytes) with
    frames := s.frames ++ [bytes]
    sh := 0#8
    bitcnt := 0#3
    dly := 0 }

/-- The bytes of transaction 0, 1 or 2 of a refresh cycle (42_protocol_driver.md R91). -/
def State.payload (s : State) : Txn → List Byte
  | .mode => [modeByte]
  | .data => addressByte :: s.cells
  | .ctrl => [controlByte s.intensity]

/-- The full refresh cycle (42_protocol_driver.md R91): transactions 0, 1 and 2. -/
def State.refresh (s : State) : State :=
  ((s.txn (s.payload .mode)).txn (s.payload .data)).txn (s.payload .ctrl)

/-- `line_oe <- 1; emit(L0)`: configure both outputs and drive them low together (43_refresh_orchestration.md R100). -/
def State.setupLines (s : State) : State := { s with lineOe := true }.emit [.l0]

/-- The guard of every operation but INIT: before setup it has no meaning (70_reset_and_hazards.md R131 (a)). -/
def State.whenInited (s : State) (k : Host.Outcome State Fault Refusal) : Host.Outcome State Fault Refusal :=
  if s.inited then k else .refused .notInitialised

end Sys2Proof.Machine
end

