-- ==== Sys2Proof/Machine/Flags.lean ====
section
/-! DEFINITION. The block's one status flag, `ovf` (10_state.md R17): when a PUTC raises Overflow (60_exceptions.md R109, R111). -/

namespace Sys2Proof.Machine

/-- The index a point ORs into: the cell before the cursor once this print operation has advanced, else the cursor's own
(41_text_formatter.md R73). -/
def State.pointTarget (s : State) : Nat :=
  if s.start.toNat < s.cursorIndex then s.cursorIndex - 1 else s.cursorIndex

/-- The index the character would write to (41_text_formatter.md R71 to R73). -/
def State.targetIndex (s : State) : CharClass → Nat
  | .point => s.pointTarget
  | .glyph => s.cursorIndex
  | .blank => s.cursorIndex

/-- The character overflows: its index does not exist (60_exceptions.md R109 for a character, R111 for a point). -/
def State.overflows (s : State) (c : CharClass) : Bool := decide (s.size ≤ s.targetIndex c)

end Sys2Proof.Machine
end

