-- ==== Sys2Proof/Machine/Formatter.lean ====
section
/-! DEFINITION. The Text Formatter (41_text_formatter.md): CLEAR, PBEGIN, PUTC, and the steps a character makes. -/

namespace Sys2Proof.Machine

/-- `fb[k] <- v; cursor <- k + 1`: what steps 2 and 4 of the algorithm share (41_text_formatter.md R71 to R73). -/
def State.putCell (s : State) (k : Nat) (v : Byte) : Host.Outcome State Fault Refusal :=
  match s.writeCell k v with
  | .ok t => .next (t.setCursor (k + 1))
  | .error f => .fault f

/-- One character that is not the point (41_text_formatter.md R70 steps 3 and 4): Overflow, or PUTC_WRITE of the pattern. -/
def State.putPattern (s : State) (cls : CharClass) (p : Pattern) : Host.Outcome State Fault Refusal :=
  if s.overflows cls then .next s.raiseOverflow else s.putCell s.cursorIndex (segmentByte p)

/-- PUTC_POINT (41_text_formatter.md R73, R75): Overflow, or OR the point bit into the target cell. -/
def State.putPoint (s : State) : Host.Outcome State Fault Refusal :=
  if s.overflows .point then .next s.raiseOverflow
  else match s.readCell s.pointTarget with
    | .ok old => s.putCell s.pointTarget (withPoint old)
    | .error f => .fault f

/-- What every character shares (41_text_formatter.md R70): refused before setup (70_reset_and_hazards.md R131), and ignored while
`ovf = 1`. -/
def State.character (s : State) (k : Host.Outcome State Fault Refusal) : Host.Outcome State Fault Refusal :=
  s.whenInited (if s.ovf then .next s else k)

/-- A character of class GLYPH (41_text_formatter.md R71). -/
def State.putGlyph (s : State) (c : Byte) : Host.Outcome State Fault Refusal :=
  s.character (s.putPattern .glyph (romRead (romAddress c)))

/-- A character of class BLANK (41_text_formatter.md R72). -/
def State.putBlank (s : State) : Host.Outcome State Fault Refusal :=
  s.character (s.putPattern .blank blankPattern)

/-- CLEAR (41_text_formatter.md R68); the argument is ignored (30_encoding.md R47). -/
def execClear (_arg : Byte) (s : State) : Host.Outcome State Fault Refusal :=
  s.whenInited (.next s.clearCells)

/-- PBEGIN p (41_text_formatter.md R69). -/
def execPbegin (p : Pos) (s : State) : Host.Outcome State Fault Refusal :=
  s.whenInited (.next (s.loadPrint p).returnFromOverflow)

/-- PUTC c: the dispatch of 41_text_formatter.md R70, with the pattern of ENCODE for every code that is not the point. -/
def execPutc (c : Byte) (s : State) : Host.Outcome State Fault Refusal :=
  s.character (if c = pointCode then s.putPoint else s.putPattern (charClass c) (encodeChar c))

end Sys2Proof.Machine
end

