-- ==== Sys2Proof/Machine/Characters.lean ====
section
/-! DEFINITION. The fifteen character rows of spec/opcode_table.json (30_encoding.md R48): one character of a print operation, by the
row of its code. PUTC c does what the row of c does (41_text_formatter.md R70). -/

namespace Sys2Proof.Machine

/-- BLANK_00_1F: codes 0x00-0x1F (41_text_formatter.md R72). -/
def execBlank00to1F (_c : Byte) (s : State) : Host.Outcome State Fault Refusal :=
  s.putBlank

/-- GLYPH_20_27: codes 0x20-0x27 (41_text_formatter.md R71). -/
def execGlyph20to27 (c : Byte) (s : State) : Host.Outcome State Fault Refusal :=
  s.putGlyph c

/-- GLYPH_28_2B: codes 0x28-0x2B (41_text_formatter.md R71). -/
def execGlyph28to2B (c : Byte) (s : State) : Host.Outcome State Fault Refusal :=
  s.putGlyph c

/-- GLYPH_2C_2D: codes 0x2C-0x2D (41_text_formatter.md R71). -/
def execGlyph2Cto2D (c : Byte) (s : State) : Host.Outcome State Fault Refusal :=
  s.putGlyph c

/-- POINT_2E: codes 0x2E (41_text_formatter.md R73, R75). -/
def execPoint2E (s : State) : Host.Outcome State Fault Refusal :=
  s.character s.putPoint

/-- GLYPH_2F: codes 0x2F (41_text_formatter.md R71). -/
def execGlyph2F (s : State) : Host.Outcome State Fault Refusal :=
  s.putGlyph 0x2F#8

/-- GLYPH_30_3F: codes 0x30-0x3F (41_text_formatter.md R71). -/
def execGlyph30to3F (c : Byte) (s : State) : Host.Outcome State Fault Refusal :=
  s.putGlyph c

/-- GLYPH_40_5F: codes 0x40-0x5F (41_text_formatter.md R71). -/
def execGlyph40to5F (c : Byte) (s : State) : Host.Outcome State Fault Refusal :=
  s.putGlyph c

/-- GLYPH_60_6F: codes 0x60-0x6F (41_text_formatter.md R71). -/
def execGlyph60to6F (c : Byte) (s : State) : Host.Outcome State Fault Refusal :=
  s.putGlyph c

/-- GLYPH_70_77: codes 0x70-0x77 (41_text_formatter.md R71). -/
def execGlyph70to77 (c : Byte) (s : State) : Host.Outcome State Fault Refusal :=
  s.putGlyph c

/-- GLYPH_78_7B: codes 0x78-0x7B (41_text_formatter.md R71). -/
def execGlyph78to7B (c : Byte) (s : State) : Host.Outcome State Fault Refusal :=
  s.putGlyph c

/-- GLYPH_7C_7D: codes 0x7C-0x7D (41_text_formatter.md R71). -/
def execGlyph7Cto7D (c : Byte) (s : State) : Host.Outcome State Fault Refusal :=
  s.putGlyph c

/-- GLYPH_7E: codes 0x7E (41_text_formatter.md R71). -/
def execGlyph7E (s : State) : Host.Outcome State Fault Refusal :=
  s.putGlyph 0x7E#8

/-- BLANK_7F: codes 0x7F (41_text_formatter.md R72). -/
def execBlank7F (s : State) : Host.Outcome State Fault Refusal :=
  s.putBlank

/-- BLANK_80_FF: codes 0x80-0xFF (41_text_formatter.md R72). -/
def execBlank80toFF (_c : Byte) (s : State) : Host.Outcome State Fault Refusal :=
  s.putBlank

end Sys2Proof.Machine
end

