-- ==== Sys2Proof/Machine/Driver.lean ====
section
/-! DEFINITION. The Protocol Driver (42_protocol_driver.md): DISPLAY and the wire command bytes (30_encoding.md R53 to R55), each the
transaction the driver sends it in. -/

namespace Sys2Proof.Machine

/-- DISPLAY (42_protocol_driver.md R91): the full refresh cycle; the argument is ignored (30_encoding.md R47). -/
def execDisplay (_arg : Byte) (s : State) : Host.Outcome State Fault Refusal :=
  s.whenInited (.next s.refresh)

/-- CMD_DATA_AUTOINC (30_encoding.md R53): transaction 0, the byte 0x40 alone (42_protocol_driver.md R91). -/
def execCmdDataAutoinc (s : State) : Host.Outcome State Fault Refusal :=
  s.whenInited (.next (s.txn (s.payload .mode)))

/-- CMD_ADDR_FIRST (30_encoding.md R53): transaction 1, the byte 0xC0 and then every cell in index order (42_protocol_driver.md R91). -/
def execCmdAddrFirst (s : State) : Host.Outcome State Fault Refusal :=
  s.whenInited (.next (s.txn (s.payload .data)))

/-- CMD_DISPLAY_CTRL (30_encoding.md R54): transaction 2, the control byte with the intensity field `i` (42_protocol_driver.md R91). -/
def execCmdDisplayCtrl (i : BitVec 3) (s : State) : Host.Outcome State Fault Refusal :=
  s.whenInited (.next (s.txn [controlByte i]))

/-- CMD_0x44 (30_encoding.md R55): "no sentence says what it means", and the block never emits it. -/
def execCmd0x44 (_s : State) : Host.Outcome State Fault Refusal :=
  .refused (.noWireRole 0x44#8)

end Sys2Proof.Machine
end

