-- ==== Sys2Proof/Machine/Orchestration.lean ====
section
/-! DEFINITION. The Refresh Orchestration (43_refresh_orchestration.md): INIT; and the host command words with a reserved opcode
(30_encoding.md R46). -/

namespace Sys2Proof.Machine

/-- INIT (43_refresh_orchestration.md R100, R103): both lines low, one refresh cycle, `inited <- 1`; a second INIT has no meaning
(R102). The argument is ignored (30_encoding.md R47). -/
def execInit (_arg : Byte) (s : State) : Host.Outcome State Fault Refusal :=
  if s.inited then .refused .alreadyInitialised
  else .next { s.setupLines.refresh with inited := true }

/-- RESERVED_101 (30_encoding.md R46, 70_reset_and_hazards.md R131 (c)): "the model treats it as `refuse`". -/
def execReserved101 (_arg : Byte) (_s : State) : Host.Outcome State Fault Refusal :=
  .refused (.reservedOpcode 5#3)

/-- RESERVED_11x (30_encoding.md R46, 70_reset_and_hazards.md R131 (c)): opcodes 110 and 111. -/
def execReserved11x (arg : BitVec 9) (_s : State) : Host.Outcome State Fault Refusal :=
  .refused (.reservedOpcode (3#2 ++ arg.extractLsb' 8 1))

end Sys2Proof.Machine
end

