-- ==== Sys2Proof/Machine/Dispatch.lean ====
section
/-! DEFINITION. The dispatch: one arm per row of spec/opcode_table.json, in the table's order. -/

namespace Sys2Proof.Machine

/-- What an instruction does. -/
def exec (i : Instr) (s : State) : Host.Outcome State Fault Refusal :=
  match i with
  | .init arg => Sys2Proof.Machine.execInit arg s
  | .clear arg => Sys2Proof.Machine.execClear arg s
  | .pbegin p => Sys2Proof.Machine.execPbegin p s
  | .putc c => Sys2Proof.Machine.execPutc c s
  | .display arg => Sys2Proof.Machine.execDisplay arg s
  | .reserved101 arg => Sys2Proof.Machine.execReserved101 arg s
  | .reserved11x arg => Sys2Proof.Machine.execReserved11x arg s
  | .blank00to1F c => Sys2Proof.Machine.execBlank00to1F c s
  | .glyph20to27 c => Sys2Proof.Machine.execGlyph20to27 c s
  | .glyph28to2B c => Sys2Proof.Machine.execGlyph28to2B c s
  | .glyph2Cto2D c => Sys2Proof.Machine.execGlyph2Cto2D c s
  | .point2E => Sys2Proof.Machine.execPoint2E s
  | .glyph2F => Sys2Proof.Machine.execGlyph2F s
  | .glyph30to3F c => Sys2Proof.Machine.execGlyph30to3F c s
  | .glyph40to5F c => Sys2Proof.Machine.execGlyph40to5F c s
  | .glyph60to6F c => Sys2Proof.Machine.execGlyph60to6F c s
  | .glyph70to77 c => Sys2Proof.Machine.execGlyph70to77 c s
  | .glyph78to7B c => Sys2Proof.Machine.execGlyph78to7B c s
  | .glyph7Cto7D c => Sys2Proof.Machine.execGlyph7Cto7D c s
  | .glyph7E => Sys2Proof.Machine.execGlyph7E s
  | .blank7F => Sys2Proof.Machine.execBlank7F s
  | .blank80toFF c => Sys2Proof.Machine.execBlank80toFF c s
  | .cmdDataAutoinc => Sys2Proof.Machine.execCmdDataAutoinc s
  | .cmdAddrFirst => Sys2Proof.Machine.execCmdAddrFirst s
  | .cmdDisplayCtrl k => Sys2Proof.Machine.execCmdDisplayCtrl k s
  | .cmd0x44 => Sys2Proof.Machine.execCmd0x44 s

end Sys2Proof.Machine
end

