-- ==== Sys2Proof/Machine/Serializer.lean ====
section
/-! DEFINITION. The clocked form of the Protocol Driver (10_state.md R16, R21 to R23; 70_reset_and_hazards.md R142): the serializer
advances by one clock edge. `exec` runs INIT and DISPLAY as single steps; this file says how the hardware registers get there. -/

namespace Sys2Proof.Machine

/-- The transaction after this one (42_protocol_driver.md R91). -/
def Txn.after : Txn → Option Txn
  | .mode => some .data
  | .data => some .ctrl
  | .ctrl => none

/-- The index of the last byte of a transaction (10_state.md R16: `byte` is 0 in transactions 0 and 2, `0..N` in transaction 1). -/
def State.lastByte (s : State) : Txn → Nat
  | .mode => 0
  | .data => s.size
  | .ctrl => 0

/-- The first position of a transaction. That `byte` is 0 in `START0`, before any byte, is a DESIGN CHOICE: 10_state.md R16 gives
ranges only (log entry 15). -/
def Txn.begin (t : Txn) : SeqPos := { txn := t, byte := 0, phase := .start0 }

/-- The fixed order of the positions (42_protocol_driver.md R84 to R91, 10_state.md R16); `none` after the last. Phase `B3` of the
eighth bit (`bitcnt = 7`) goes on to the settle delay. That `byte` keeps the last byte's index through `STOP0` to `STOP2` is a DESIGN
CHOICE: R16 gives ranges only (log entry 15). -/
def State.seqAfter (s : State) (p : SeqPos) : Option SeqPos :=
  match p.phase with
  | .start0 => some { p with phase := .b0 }
  | .b0 => some { p with phase := .b1 }
  | .b1 => some { p with phase := .b2 }
  | .b2 => some { p with phase := .b3 }
  | .b3 => if s.bitcnt = 7#3 then some { p with phase := .settle } else some { p with phase := .b0 }
  | .settle => if p.byte < s.lastByte p.txn then some { p with byte := p.byte + 1, phase := .b0 } else some { p with phase := .stop0 }
  | .stop0 => some { p with phase := .stop1 }
  | .stop1 => some { p with phase := .stop2 }
  | .stop2 => p.txn.after.map Txn.begin

/-- The byte at a position of a transaction. -/
def State.byteAt (s : State) (p : SeqPos) : Byte := (s.payload p.txn).getD p.byte blankByte

/-- The event that opens a phase, if it writes a line (42_protocol_driver.md R84 to R86; the settle delay writes none, R88). -/
def phaseEvents (sh : Byte) : Phase → List WireEvent
  | .start0 => [.d0]
  | .b0 => [.c0]
  | .b1 => [dataEvent (dataBit sh)]
  | .b2 => [.c1]
  | .b3 => [.c0]
  | .settle => []
  | .stop0 => [.d0]
  | .stop1 => [.c1]
  | .stop2 => [.d1]

/-- The first cell of a byte is being opened, which is when `sh` is loaded (42_protocol_driver.md R86). -/
def State.loadsByte (s : State) (p : SeqPos) : Bool := p.phase == .b0 && s.bitcnt == 0#3

/-- Enter a phase: load `sh` where a byte begins, write the line, and start the wait with `dly <- T_CYCLES − 1`
(70_reset_and_hazards.md R142: the write and the start of its wait share a clock edge). START clears `bitcnt`, so that it counts the
bits of every byte from 0 (10_state.md R21): DESIGN CHOICE, log entry 15. -/
def State.enterPhase (s : State) (p : SeqPos) : State :=
  let sh := if s.loadsByte p then s.byteAt p else s.sh
  { s.emit (phaseEvents sh p.phase ++ [.w]) with
    sh := sh
    bitcnt := if p.phase = .start0 then 0#3 else s.bitcnt
    seq := some p
    dly := s.params.tCycles - 1 }

/-- Leave a phase: the shift and the count that end a cell (42_protocol_driver.md R86, 10_state.md R21), the frame that ends a
transaction (R96). `bitcnt` wraps to 0 with the eighth bit and is 0 through `SETTLE` and `STOP0` to `STOP2`: DESIGN CHOICE, 10_state.md
R16 gives the range only (log entry 15). -/
def State.leavePhase (s : State) (p : SeqPos) : State :=
  match p.phase with
  | .b3 => { s with sh := shifted s.sh, bitcnt := s.bitcnt + 1#3 }
  | .stop2 => { s with frames := s.frames ++ [s.payload p.txn] }
  | .start0 => s
  | .b0 => s
  | .b1 => s
  | .b2 => s
  | .settle => s
  | .stop0 => s
  | .stop1 => s

/-- The last wait is over: the operation has finished (10_state.md R23), and if it was INIT, setup has happened
(43_refresh_orchestration.md R100). `busy` falls on the very edge that ends the last wait, so the "small constant" of
70_reset_and_hazards.md R143 is 0: DESIGN CHOICE, log entry 16. -/
def State.finish (s : State) : State := { s with seq := none, busy := false, inited := true }

/-- A wait is over: leave its phase and go on to the next one, or finish. -/
def State.advance (s : State) (p : SeqPos) : State :=
  match s.seqAfter p with
  | some q => (s.leavePhase p).enterPhase q
  | none => (s.leavePhase p).finish

/-- One clock edge while an operation is in progress (70_reset_and_hazards.md R142): count the wait down, or go on to the next phase.
An operation in progress with an idle `seq` is a CLEAR, PBEGIN or PUTC in its one busy period (R143), which this edge ends. -/
def State.clockEdge (s : State) : State :=
  match s.seq with
  | none => { s with busy := false }
  | some p =>
    if 0 < s.dly then { s with dly := s.dly - 1 } else s.advance p

/-- The edge at which DISPLAY is accepted (30_encoding.md R45): `busy <- 1`, and the first START begins on the same edge, so the "small
constant" of 70_reset_and_hazards.md R143 is 0: DESIGN CHOICE, log entry 16. -/
def State.acceptDisplay (s : State) : State := { s with busy := true }.enterPhase Txn.mode.begin

/-- The edge at which INIT is accepted: both lines low, then, with no wait between, the first START (43_refresh_orchestration.md
R100), all on this edge: DESIGN CHOICE, log entry 16. -/
def State.acceptInit (s : State) : State := { s.setupLines with busy := true }.enterPhase Txn.mode.begin

end Sys2Proof.Machine
end

