-- ==== Sys2Proof/Machine/Fetch.lean ====
section
/-! DEFINITION. How an operation reaches the block: the reset input (70_reset_and_hazards.md R126, R128), the acceptance of a presented
operation (30_encoding.md R45), and the placing of one. -/

namespace Sys2Proof.Machine

/-- A clock edge with `rst = 1` (70_reset_and_hazards.md R126): every piece of state at its value of 10_state.md R27, whatever the
block was doing (R128). The parameters are fixed at construction, and what the host presents is not the block's state. -/
def State.applyReset (s : State) : State := { State.resetWith s.params with pending := s.pending }

/-- Accept the first presented operation and run it to completion (30_encoding.md R45); with none presented the block waits
(70_reset_and_hazards.md R145). -/
def State.accept (s : State) : Host.Outcome State Fault Refusal :=
  match s.pending with
  | [] => .next s
  | p :: rest => match decode p with
    | .ok i => exec i { s with pending := rest }
    | .error e => .refused (.undecodable e)

/-- The edge at which CLEAR, PBEGIN or PUTC is accepted in the clocked form (70_reset_and_hazards.md R140, R143): the operation takes
its effect, and `busy` is 1, so `cmd_ready` 0, for one clock period, which the next clock edge ends. An operation that is refused is
refused here. That the effect is written on the accepting edge is a DESIGN CHOICE, log entry 16. -/
def State.acceptShort (s : State) (i : Instr) : Host.Outcome State Fault Refusal :=
  match exec i s with
  | .next t => .next { t with busy := true }
  | .fault f => .fault f
  | .refused r => .refused r

/-- `s` with the unit `p` presented first, and the block ready to accept it. -/
def State.present (s : State) (p : OpWord) : State :=
  { s with pending := p :: s.pending, busy := false, seq := none, rst := false }

end Sys2Proof.Machine
end

