-- ==== Sys2Proof/Machine/Step.lean ====
section
/-! DEFINITION. The step: reset wins (70_reset_and_hazards.md R126, R128); an operation in progress goes on and nothing is accepted
(10_state.md R23, 70_reset_and_hazards.md R132); otherwise the next presented operation is accepted and runs to completion
(30_encoding.md R45, 70_reset_and_hazards.md R145). -/

namespace Sys2Proof.Machine

/-- One step of the block. -/
def step (s : State) : Host.Outcome State Fault Refusal :=
  if s.rst then .next s.applyReset
  else if s.busy then .next s.clockEdge
  else s.accept

/-- `s` with the unit that the table's bits `w` are presented as the next operation. Bits that are no unit present nothing. -/
def State.withFetchWord (s : State) (nbits w : Nat) : State :=
  match tableWord nbits w with
  | .ok p => s.present p
  | .error _ => s

end Sys2Proof.Machine
end

