-- ==== Sys2Proof/Safety.lean ====
section
/-! DEFINITION. The terms the claims are stated in: invariants of the state, observers of a wire trace, the classes of
instructions, and the pseudo-operations PRINT and TICK (30_encoding.md R60). -/

namespace Sys2Proof.Machine

/-! ## Invariants -/

/-- The Framebuffer invariant (10_state.md R13): canonical, and no cell outside `0..N−1`. -/
abbrev FbOk (s : State) : Prop := Memory.wf s.fb = true ∧ ∀ e ∈ s.fb, e.1 < s.size

/-- The invariant of a print operation (41_text_formatter.md R79 (a), (b)). -/
abbrev PrintOk (s : State) : Prop :=
  s.start.toNat ≤ s.cursorIndex ∧ s.cursorIndex ≤ max s.start.toNat s.size

/-- No operation is in progress. -/
abbrev IdleOk (s : State) : Prop := s.busy = false ∧ s.seq = none

/-- The event that setup puts in front of a trace (43_refresh_orchestration.md R100). -/
def setupEvents (inited : Bool) : List WireEvent := if inited then [.l0] else []

/-- The event sequences of a list of frames, one TXN after another (42_protocol_driver.md R96). -/
def framesEvents (fs : List (List Byte)) : List WireEvent := fs.flatMap txnEvents

/-- The invariant of the wire between operations (42_protocol_driver.md R94, R96; 10_state.md R19, R20, R27): nothing is in progress,
the lines are driven from setup on and rest in bus idle, and the trace is the setup event followed by the transactions of the frame
view. -/
abbrev WireOk (s : State) : Prop :=
  IdleOk s ∧ s.lineOe = s.inited ∧ s.trace = setupEvents s.inited ++ framesEvents s.frames ∧
  (s.inited = true → s.clockO = .high ∧ s.dataO = .high) ∧ (s.inited = false → s.frames = [])

/-- A frame the block can send with display length `n` (30_encoding.md R52 to R54, R57): a command byte, alone or, for the address
command, with `n` segment bytes. -/
abbrev CommandFrame (n : Nat) (f : List Byte) : Prop :=
  f = [modeByte] ∨ (f.head? = some addressByte ∧ f.length = n + 1) ∨ ∃ i : BitVec 3, f = [controlByte i]

/-- Every frame sent is one of the block's. -/
abbrev FramesOk (s : State) : Prop := ∀ f ∈ s.frames, CommandFrame s.size f

/-- The levels of CLOCK and DATA after a trace, once an `L0` has set them (10_state.md R24, the waveform). -/
def traceLevels (es : List WireEvent) : Option (Level × Level) :=
  es.foldl (fun l e => if e = .l0 then some (.low, .low) else l.map fun p => (clockAfter p.1 e, dataAfter p.2 e)) none

/-- While the lines are driven, their levels are those of the trace. -/
abbrev LinesOk (s : State) : Prop := s.lineOe = true → traceLevels s.trace = some (s.clockO, s.dataO)

/-- The intensity register holds the parameter (10_state.md R18). -/
abbrev IntensityOk (s : State) : Prop := s.intensity = s.params.intensity

/-! ## Observers of a trace -/

/-- The number of waits in a trace; each lasts at least `T` (70_reset_and_hazards.md R140). -/
def waits (es : List WireEvent) : Nat := es.count .w

/-- The events that write one line. -/
def WireEvent.isLineWrite : WireEvent → Bool
  | .l0 => false
  | .c0 => true
  | .c1 => true
  | .d0 => true
  | .d1 => true
  | .w => false

/-- The number of single-line writes in a trace (42_protocol_driver.md R97). -/
def lineWrites (es : List WireEvent) : Nat := es.countP WireEvent.isLineWrite

/-- The rising edges of CLOCK in a trace that begins with CLOCK at level `c` (42_protocol_driver.md R95). -/
def clockRises (c : Level) : List WireEvent → Nat
  | [] => 0
  | e :: es => (if c = .low ∧ clockAfter c e = .high then 1 else 0) + clockRises (clockAfter c e) es

/-- The changes of DATA while CLOCK is High, from levels `c` and `d` (42_protocol_driver.md R95), each with the level DATA takes. -/
def dataChangesWhileHigh (c d : Level) : List WireEvent → List Level
  | [] => []
  | e :: es =>
    (if c = .high ∧ clockAfter c e = .high ∧ dataAfter d e ≠ d then [dataAfter d e] else [])
      ++ dataChangesWhileHigh (clockAfter c e) (dataAfter d e) es

/-- The writes of DATA while CLOCK is High, from level `c` (42_protocol_driver.md R95), each with the level written. -/
def dataWritesWhileHigh (c : Level) : List WireEvent → List Level
  | [] => []
  | e :: es =>
    (if c = .high ∧ (e = .d0 ∨ e = .d1) then [dataAfter .low e] else []) ++ dataWritesWhileHigh (clockAfter c e) es

/-! ## Classes of instructions -/

end Sys2Proof.Machine

namespace Sys2Proof

open Sys2Proof.Machine

/-- The code of an instruction that processes a GLYPH character: PUTC of such a code, or one of the eleven GLYPH rows. -/
def Instr.glyphCode : Instr → Option Byte
  | .putc c => if charClass c = .glyph then some c else none
  | .glyph20to27 c | .glyph28to2B c | .glyph2Cto2D c | .glyph30to3F c | .glyph40to5F c | .glyph60to6F c | .glyph70to77 c
  | .glyph78to7B c | .glyph7Cto7D c => some c
  | .glyph2F => some 0x2F#8
  | .glyph7E => some 0x7E#8
  | .init _ | .clear _ | .pbegin _ | .display _ | .reserved101 _ | .reserved11x _ | .blank00to1F _ | .point2E | .blank7F
  | .blank80toFF _ | .cmdDataAutoinc | .cmdAddrFirst | .cmdDisplayCtrl _ | .cmd0x44 => none

/-- An instruction that processes a BLANK character: PUTC of such a code, or one of the three BLANK rows. -/
def Instr.isBlank : Instr → Bool
  | .putc c => charClass c == .blank
  | .blank00to1F _ | .blank7F | .blank80toFF _ => true
  | .init _ | .clear _ | .pbegin _ | .display _ | .reserved101 _ | .reserved11x _ | .glyph20to27 _ | .glyph28to2B _
  | .glyph2Cto2D _ | .point2E | .glyph2F | .glyph30to3F _ | .glyph40to5F _ | .glyph60to6F _ | .glyph70to77 _ | .glyph78to7B _
  | .glyph7Cto7D _ | .glyph7E | .cmdDataAutoinc | .cmdAddrFirst | .cmdDisplayCtrl _ | .cmd0x44 => false

/-- An instruction that processes the POINT: PUTC of its code, or the row POINT_2E. -/
def Instr.isPoint : Instr → Bool
  | .putc c => c == pointCode
  | .point2E => true
  | .init _ | .clear _ | .pbegin _ | .display _ | .reserved101 _ | .reserved11x _ | .blank00to1F _ | .glyph20to27 _
  | .glyph28to2B _ | .glyph2Cto2D _ | .glyph2F | .glyph30to3F _ | .glyph40to5F _ | .glyph60to6F _ | .glyph70to77 _
  | .glyph78to7B _ | .glyph7Cto7D _ | .glyph7E | .blank7F | .blank80toFF _ | .cmdDataAutoinc | .cmdAddrFirst
  | .cmdDisplayCtrl _ | .cmd0x44 => false

/-- An instruction that processes one character: PUTC and the fifteen character rows. -/
def Instr.isCharacter : Instr → Bool
  | .putc _ | .blank00to1F _ | .glyph20to27 _ | .glyph28to2B _ | .glyph2Cto2D _ | .point2E | .glyph2F | .glyph30to3F _
  | .glyph40to5F _ | .glyph60to6F _ | .glyph70to77 _ | .glyph78to7B _ | .glyph7Cto7D _ | .glyph7E | .blank7F
  | .blank80toFF _ => true
  | .init _ | .clear _ | .pbegin _ | .display _ | .reserved101 _ | .reserved11x _ | .cmdDataAutoinc | .cmdAddrFirst
  | .cmdDisplayCtrl _ | .cmd0x44 => false

/-- The class of the character an instruction processes (30_encoding.md R48). -/
def Instr.characterClass (i : Instr) : CharClass :=
  if i.isPoint then .point else if i.isBlank then .blank else .glyph

/-- The instructions that are refused in every state: a reserved opcode, the wire byte without a role. -/
def Instr.hasNoMeaning : Instr → Bool
  | .reserved101 _ | .reserved11x _ | .cmd0x44 => true
  | .init _ | .clear _ | .pbegin _ | .putc _ | .display _ | .blank00to1F _ | .glyph20to27 _ | .glyph28to2B _
  | .glyph2Cto2D _ | .point2E | .glyph2F | .glyph30to3F _ | .glyph40to5F _ | .glyph60to6F _ | .glyph70to77 _ | .glyph78to7B _
  | .glyph7Cto7D _ | .glyph7E | .blank7F | .blank80toFF _ | .cmdDataAutoinc | .cmdAddrFirst | .cmdDisplayCtrl _ => false

/-- The class spec/opcode_table.json gives a character row, `none` for the rows of the other formats. -/
def Instr.tableClass : Instr → Option CharClass
  | .blank00to1F _ | .blank7F | .blank80toFF _ => some .blank
  | .glyph20to27 _ | .glyph28to2B _ | .glyph2Cto2D _ | .glyph2F | .glyph30to3F _ | .glyph40to5F _ | .glyph60to6F _
  | .glyph70to77 _ | .glyph78to7B _ | .glyph7Cto7D _ | .glyph7E => some .glyph
  | .point2E => some .point
  | .init _ | .clear _ | .pbegin _ | .putc _ | .display _ | .reserved101 _ | .reserved11x _ | .cmdDataAutoinc | .cmdAddrFirst
  | .cmdDisplayCtrl _ | .cmd0x44 => none

end Sys2Proof

namespace Sys2Proof.Machine

/-! ## Pseudo-operations (30_encoding.md R60) -/

/-- Run instructions one after another, stopping at the first fault or refusal. -/
def runInstrs : List Instr → State → Host.Outcome State Fault Refusal
  | [], s => .next s
  | i :: is, s => match exec i s with
    | .next t => runInstrs is t
    | .fault f => .fault f
    | .refused r => .refused r

/-- PRINT p, text (41_text_formatter.md R78): PBEGIN, then one PUTC per character. -/
def printOps (p : Pos) (text : List Byte) : List Instr := .pbegin p :: text.map .putc

/-- TICK { body } (43_refresh_orchestration.md R104): CLEAR, the body, DISPLAY. -/
def tickOps (body : List Instr) : List Instr := .clear 0#8 :: (body ++ [.display 0#8])

end Sys2Proof.Machine
end

