-- ==== Sys2Proof/Certificates/Slice0/Obligations.lean ====
section
/-! DEFINITION. The statements for the provers. Each docstring names the rule of spec/ its statement is about; every statement
quantifies over every state, so over every configuration (N, INTENSITY, T_CYCLES) too, and over every ROM. -/

open Sys2Proof Sys2Proof.Machine

/-! ## Encodings -/

/-- Words of the three formats, written out from 30_encoding.md R44, R48 and R53, and the instructions they stand for. -/
def Obligations.SampleWordsDecode : Prop :=
  decode (.host 0b000_00000000#11) = .ok (.init 0#8) ∧
  decode (.host 0b001_11111111#11) = .ok (.clear 0xFF#8) ∧
  decode (.host 0b010_00000010#11) = .ok (.pbegin 2#8) ∧
  decode (.host 0b011_00101110#11) = .ok (.putc 0x2E#8) ∧
  decode (.host 0b100_00000000#11) = .ok (.display 0#8) ∧
  decode (.host 0b111_00000000#11) = .ok (.reserved11x 0b100000000#9) ∧
  decode (.char 0b00101110#8) = .ok .point2E ∧
  decode (.char 0b00110000#8) = .ok (.glyph30to3F 0x30#8) ∧
  decode (.char 0b01111111#8) = .ok .blank7F ∧
  decode (.wire 0b01000000#8) = .ok .cmdDataAutoinc ∧
  decode (.wire 0b11000000#8) = .ok .cmdAddrFirst ∧
  decode (.wire 0b10001011#8) = .ok (.cmdDisplayCtrl 3#3)

/-- 30_encoding.md R44 to R48, R53 to R55: no bit of an encoding is dropped. -/
def Obligations.DecodeOfEncodeIsTheInstruction : Prop :=
  ∀ i : Instr, i.wellFormed = true → decode (encode i) = .ok i

/-- The other direction: a unit that decodes is the encoding of what it decodes to, so every word has one meaning. -/
def Obligations.EncodeOfDecodeIsTheUnit : Prop :=
  ∀ (p : OpWord) (i : Instr), decode p = .ok i → i.wellFormed = true ∧ encode i = p

/-- 30_encoding.md R44 and R48: the host rows cover every word exactly once, the character rows every code, the wire rows no byte
twice; and the decoder answers the row that matches. -/
def Obligations.EveryWordLiesInExactlyOneRow : Prop :=
  (∀ w : CmdWord, rowsMatching hostRows w = 1 ∧ (OpWord.host w).inRowAt (decodeHost w).rowIndex = true) ∧
  (∀ c : Byte, rowsMatching charRows c = 1 ∧ (OpWord.char c).inRowAt (decodeChar c).rowIndex = true) ∧
  (∀ b : Byte, rowsMatching wireRows b ≤ 1 ∧ (rowsMatching wireRows b = 1 ↔ ∃ i, decode (.wire b) = .ok i))

/-- 30_encoding.md R48: the table's class of a code is the class by range comparison. -/
def Obligations.TableClassIsRangeClass : Prop :=
  ∀ c : Byte, (decodeChar c).tableClass =
    some (if c = 0x2E#8 then .point else if 0x20 ≤ c.toNat ∧ c.toNat ≤ 0x7E then .glyph else .blank)

/-! ## The Segment Encoder -/

/-- 40_segment_encoder.md R62, 30_encoding.md R49, 20_memory.md R29. -/
def Obligations.EncodeIsRangeCheckedLookup : Prop :=
  ∀ c : Byte,
    (0x20 ≤ c.toNat ∧ c.toNat ≤ 0x7E → encodeChar c = romRead (c.toNat - 0x20) ∧ c.toNat - 0x20 ≤ 94) ∧
    (c.toNat < 0x20 ∨ 0x7E < c.toNat → encodeChar c = 0#7)

/-- 40_segment_encoder.md R63: the two pinned words, and what the source's two sentences say of ENCODE. -/
def Obligations.PinnedRomWords : Prop :=
  romRead 0x00 = 0b0000000#7 ∧ romRead 0x10 = 0b0111111#7 ∧ encodeChar 0x20#8 = 0b0000000#7 ∧ encodeChar 0x30#8 = 0x3F#7 ∧
  (encodeChar 0x30#8).zeroExtend 8 = 0b00111111#8 ∧ ∀ c : Byte, c.toNat < 0x20 ∨ 0x7E < c.toNat → encodeChar c = 0b0000000#7

/-! ## Reset -/

/-- 10_state.md R27: every value the table states (the unspecified registers are left out), for every configuration; and
`State.reset` is that state for the block's own. -/
def Obligations.ResetLeavesTheStatedValues : Prop :=
  State.reset = State.resetWith Config.params ∧
  ∀ p : Params, ∀ s : State, s = State.resetWith p →
    (∀ k, s.cell k = 0x00#8) ∧ s.start = 0#8 ∧ s.cursor = 0#8 ∧ s.ovf = false ∧ s.intensity = p.intensity ∧
    s.inited = false ∧ s.lineOe = false ∧ s.seq = none ∧ s.busy = false ∧ s.cmdReady = true ∧ s.trace = [] ∧ s.ret = 0#8

/-- 70_reset_and_hazards.md R130: the parameters of the block keep the bounds of the spec, whatever they are. -/
def Obligations.BlockParametersAreValid : Prop := Config.params.Valid

/-- 70_reset_and_hazards.md R126: with `rst = 1` a step puts every piece of state at its value of R27, whatever the block was doing. -/
def Obligations.ResetInputWinsOverEverything : Prop :=
  ∀ s : State, s.rst = true → ∃ t, step s = .next t ∧
    (∀ k, t.cell k = 0x00#8) ∧ t.start = 0#8 ∧ t.cursor = 0#8 ∧ t.ovf = false ∧ t.intensity = s.params.intensity ∧
    t.inited = false ∧ t.lineOe = false ∧ t.seq = none ∧ t.busy = false ∧ t.trace = [] ∧ t.size = s.size

/-! ## The step -/

/-- 30_encoding.md R45, 70_reset_and_hazards.md R145: a step runs the instruction that the first presented unit decodes to; the unit
is consumed and nothing else is done around it. -/
def Obligations.StepRunsTheDecodedInstruction : Prop :=
  ∀ (s : State) (p : OpWord) (rest : List OpWord) (i : Instr), s.rst = false → s.busy = false → s.pending = p :: rest →
    decode p = .ok i → step s = exec i { s with pending := rest }

/-- A word placed by `withFetchWord` is what the very next step runs. -/
def Obligations.PlacedWordRunsNext : Prop :=
  ∀ (s : State) (nbits w : Nat) (i : Instr), decodeTableWord nbits w = some i →
    step (s.withFetchWord nbits w) = exec i { s with busy := false, seq := none, rst := false }

/-- 70_reset_and_hazards.md R145: with nothing presented the block waits, for ever. -/
def Obligations.BlockWaitsWithoutOperation : Prop :=
  ∀ s : State, s.rst = false → s.busy = false → s.pending = [] → step s = .next s

/-- 10_state.md R23, 70_reset_and_hazards.md R132: while `busy = 1` a step accepts no operation and loses none; the registers that
host operations read and write stay as they are (42_protocol_driver.md R92), except that the end of INIT sets `inited`. That a busy step
is one clock edge and nothing else is log entry 8 (DEDUCED). -/
def Obligations.BusyBlockAcceptsNothing : Prop :=
  ∀ s : State, s.rst = false → s.busy = true → ∃ t, step s = .next t ∧ t.pending = s.pending ∧ t.fb = s.fb ∧
    t.start = s.start ∧ t.cursor = s.cursor ∧ t.ovf = s.ovf ∧ t.intensity = s.intensity ∧ t.params = s.params ∧
    t.lineOe = s.lineOe ∧ (t.busy = true → t.inited = s.inited)

/-! ## The Text Formatter -/

/-- 41_text_formatter.md R68; with any argument (30_encoding.md R47). -/
def Obligations.ClearZeroesEveryCell : Prop :=
  ∀ (a : Byte) (s : State), s.inited = true → ∃ t, exec (.clear a) s = .next t ∧ (∀ k, t.cell k = 0x00#8) ∧ t = { s with fb := t.fb }

/-- 41_text_formatter.md R69: PBEGIN loads `start` and `cursor`, clears `ovf`, and changes nothing else; `ret_o` is 0 after it. -/
def Obligations.PbeginStartsPrintOperation : Prop :=
  ∀ (p : Pos) (s : State), s.inited = true → ∃ t, exec (.pbegin p) s = .next t ∧
    t.start = p ∧ t.cursor = p ∧ t.ovf = false ∧ t.ret = 0#8 ∧ t = { s with start := p, cursor := p, ovf := false }

/-- 41_text_formatter.md R71, R81: PUTC of a GLYPH and the eleven rows GLYPH_20_27, GLYPH_28_2B, GLYPH_2C_2D, GLYPH_2F, GLYPH_30_3F,
GLYPH_40_5F, GLYPH_60_6F, GLYPH_70_77, GLYPH_78_7B, GLYPH_7C_7D, GLYPH_7E write the pattern at the cursor, bit 7 clear, and advance.
The rules speak of PUTC; that a row runs by itself is log entry 10 (DESIGN CHOICE). -/
def Obligations.GlyphWritesItsPattern : Prop :=
  ∀ (i : Instr) (c : Byte) (s : State), i.glyphCode = some c → FbOk s → s.inited = true → s.ovf = false →
    s.cursor.toNat < s.size → ∃ t, exec i s = .next t ∧
      t.cell s.cursor.toNat = (romRead (c.toNat - 0x20)).zeroExtend 8 ∧ (t.cell s.cursor.toNat).getLsbD 7 = false ∧
      (∀ k, k ≠ s.cursor.toNat → t.cell k = s.cell k) ∧ t.cursor.toNat = s.cursor.toNat + 1 ∧
      t = { s with fb := t.fb, cursor := t.cursor }

/-- 41_text_formatter.md R72: PUTC of a BLANK code and the rows BLANK_00_1F, BLANK_7F, BLANK_80_FF write 0x00 at the cursor and
advance. The rule speaks of PUTC; that a row runs by itself is log entry 10 (DESIGN CHOICE). -/
def Obligations.BlankWritesTheBlankPattern : Prop :=
  ∀ (i : Instr) (s : State), i.isBlank = true → FbOk s → s.inited = true → s.ovf = false →
    s.cursor.toNat < s.size → ∃ t, exec i s = .next t ∧
      t.cell s.cursor.toNat = 0x00#8 ∧ (∀ k, k ≠ s.cursor.toNat → t.cell k = s.cell k) ∧
      t.cursor.toNat = s.cursor.toNat + 1 ∧ t = { s with fb := t.fb, cursor := t.cursor }

/-- 41_text_formatter.md R73, R80: PUTC of the point and the row POINT_2E OR the point bit into the cell before the cursor once the
print operation has advanced, else into the cursor's own; bits 6:0 stay; the cursor ends behind that cell. The
rules speak of PUTC; that POINT_2E runs by itself is log entry 10 (DESIGN CHOICE). -/
def Obligations.PointSetsThePointBit : Prop :=
  ∀ (i : Instr) (s : State) (k : Nat), i.isPoint = true → FbOk s → s.inited = true → s.ovf = false →
    k = (if s.start.toNat < s.cursor.toNat then s.cursor.toNat - 1 else s.cursor.toNat) → k < s.size →
    ∃ t, exec i s = .next t ∧
      t.cell k = s.cell k ||| 0x80#8 ∧ (t.cell k).extractLsb' 0 7 = (s.cell k).extractLsb' 0 7 ∧
      (∀ j, j ≠ k → t.cell j = s.cell j) ∧ t.cursor.toNat = k + 1 ∧ t = { s with fb := t.fb, cursor := t.cursor }

/-- 41_text_formatter.md R74, R75, 60_exceptions.md R109, R111, R117: a character whose index does not exist sets `ovf` and changes
nothing else. The rules speak of PUTC; that a character row runs by itself is log entry 10 (DESIGN CHOICE). -/
def Obligations.OverflowSetsTheFlagOnly : Prop :=
  ∀ (i : Instr) (s : State), i.isCharacter = true → s.inited = true → s.ovf = false →
    ((i.isPoint = false ∧ s.size ≤ s.cursor.toNat) ∨
      (i.isPoint = true ∧ s.size ≤ (if s.start.toNat < s.cursor.toNat then s.cursor.toNat - 1 else s.cursor.toNat))) →
    exec i s = .next { s with ovf := true }

/-- 41_text_formatter.md R75: in a print operation the point overflows exactly when it is the first position of an operation that
began at or behind the end. The rule speaks of PUTC; that POINT_2E runs by itself is log entry 10 (DESIGN CHOICE). -/
def Obligations.PointOverflowsOnlyAtAStartBehindTheEnd : Prop :=
  ∀ (i : Instr) (s : State), i.isPoint = true → PrintOk s → s.inited = true → s.ovf = false →
    (exec i s = .next { s with ovf := true } ↔ s.cursor = s.start ∧ s.size ≤ s.start.toNat)

/-- 41_text_formatter.md R70, 60_exceptions.md R116: while `ovf = 1` every character is ignored. The rules speak of PUTC;
that a character row runs by itself is log entry 10 (DESIGN CHOICE). -/
def Obligations.CharactersAreIgnoredAfterOverflow : Prop :=
  ∀ (i : Instr) (s : State), i.isCharacter = true → s.inited = true → s.ovf = true → exec i s = .next s

/-- 41_text_formatter.md R70, 30_encoding.md R48: PUTC c does what the row of its code does. That a row run by itself
does what PUTC of its code does is the model's choice, log entry 10 (DESIGN CHOICE). -/
def Obligations.PutcRunsTheRowOfItsCode : Prop :=
  ∀ (c : Byte) (s : State), exec (.putc c) s = exec (decodeChar c) s

/-- 41_text_formatter.md R76: how every character moves the cursor. The rule speaks of PUTC; that a character row runs by itself is log
entry 10 (DESIGN CHOICE). -/
def Obligations.CursorAdvance : Prop :=
  ∀ (i : Instr) (s t : State), i.isCharacter = true → exec i s = .next t →
    (s.ovf = true ∨ t.ovf = true → t.cursor = s.cursor) ∧
    (t.ovf = false → t.cursor.toNat =
      if i.isPoint = true ∧ s.start.toNat < s.cursor.toNat then s.cursor.toNat else s.cursor.toNat + 1) ∧
    s.cursor.toNat ≤ t.cursor.toNat

/-- 41_text_formatter.md R80: a second point directly after a point changes nothing at all. That POINT_2E runs by itself is log
entry 10 (DESIGN CHOICE). -/
def Obligations.SecondPointChangesNothing : Prop :=
  ∀ (i j : Instr) (s t : State), i.isPoint = true → j.isPoint = true → FbOk s → PrintOk s → exec i s = .next t →
    exec j t = .next t

/-- 41_text_formatter.md R77, 10_state.md R15: in a print operation `ret_o` is the number of positions advanced; it is at most N, and
0 where the operation began at or behind the end (R79 (c)). -/
def Obligations.ReturnValueCountsPositions : Prop :=
  ∀ s : State, PrintOk s → s.ret.toNat = s.cursor.toNat - s.start.toNat ∧ s.ret.toNat ≤ s.size ∧
    (s.size ≤ s.start.toNat → s.ret = 0#8)

/-- 41_text_formatter.md R78: a text without points that fits writes one cell per character, in order, and returns its length. -/
def Obligations.PrintOfFittingTextWritesOneCellPerCharacter : Prop :=
  ∀ (s : State) (p : Pos) (text : List Byte), s.inited = true → FbOk s → pointCode ∉ text → p.toNat + text.length ≤ s.size →
    ∃ t, runInstrs (printOps p text) s = .next t ∧
      (∀ j (h : j < text.length), t.cell (p.toNat + j) = (encodeChar text[j]).zeroExtend 8) ∧
      (∀ k, k < p.toNat ∨ p.toNat + text.length ≤ k → t.cell k = s.cell k) ∧
      t.ret.toNat = text.length ∧ t.ovf = false ∧ t = { s with fb := t.fb, start := p, cursor := t.cursor, ovf := false }

/-- 41_text_formatter.md R78, 60_exceptions.md R110: a longer text without points writes exactly the cells up to the end, overflow is
reported, and the remaining characters write nothing. -/
def Obligations.PrintOfOverlongTextIsTruncated : Prop :=
  ∀ (s : State) (p : Pos) (text : List Byte), s.inited = true → FbOk s → pointCode ∉ text → p.toNat ≤ s.size →
    s.size < p.toNat + text.length →
    ∃ t, runInstrs (printOps p text) s = .next t ∧
      (∀ j (h : j < text.length), p.toNat + j < s.size → t.cell (p.toNat + j) = (encodeChar text[j]).zeroExtend 8) ∧
      (∀ k, k < p.toNat ∨ s.size ≤ k → t.cell k = s.cell k) ∧
      t.ret.toNat = s.size - p.toNat ∧ t.ovf = true ∧ t = { s with fb := t.fb, start := p, cursor := t.cursor, ovf := true }

/-- 41_text_formatter.md R77, 90_conflicts.md C1: a text "c.d" takes two cells, the point shares the first, and the return value is
2. -/
def Obligations.PointSharesTheCellBeforeIt : Prop :=
  ∀ (s : State) (p : Pos) (c d : Byte), s.inited = true → FbOk s → c ≠ pointCode → d ≠ pointCode → p.toNat + 2 ≤ s.size →
    ∃ t, runInstrs (printOps p [c, pointCode, d]) s = .next t ∧
      t.cell p.toNat = (encodeChar c).zeroExtend 8 ||| 0x80#8 ∧ t.cell (p.toNat + 1) = (encodeChar d).zeroExtend 8 ∧
      (∀ k, k ≠ p.toNat → k ≠ p.toNat + 1 → t.cell k = s.cell k) ∧ t.ret.toNat = 2 ∧ t.ovf = false

/-! ## The Protocol Driver and the Refresh Orchestration -/

/-- 42_protocol_driver.md R91, R92, R94: DISPLAY emits exactly the three transactions, leaves the bus idle, and changes nothing but
the line registers, the serializer registers and the trace; with any argument (30_encoding.md R47). -/
def Obligations.DisplaySendsThreeTransactions : Prop :=
  ∀ (a : Byte) (s : State), s.inited = true → ∃ t, exec (.display a) s = .next t ∧
    t.trace = s.trace ++ txnEvents [0x40#8] ++ txnEvents (0xC0#8 :: (List.range s.size).map s.cell)
      ++ txnEvents [0x80#8 ||| (s.intensity.zeroExtend 8 &&& 0x7#8) ||| 0x08#8] ∧
    t.frames = s.frames ++ [[0x40#8], 0xC0#8 :: (List.range s.size).map s.cell,
      [0x80#8 ||| (s.intensity.zeroExtend 8 &&& 0x7#8) ||| 0x08#8]] ∧
    t.clockO = .high ∧ t.dataO = .high ∧
    t = { s with trace := t.trace, frames := t.frames, clockO := t.clockO, dataO := t.dataO, sh := t.sh,
                 bitcnt := t.bitcnt, dly := t.dly }

/-- 43_refresh_orchestration.md R100, R103: INIT drives both lines low, sends one refresh cycle of the cells as they are, and sets
`inited`; with any argument (30_encoding.md R47). -/
def Obligations.InitSetsUpTheLinesAndRefreshes : Prop :=
  ∀ (a : Byte) (s : State), s.inited = false → ∃ t, exec (.init a) s = .next t ∧
    t.inited = true ∧ t.lineOe = true ∧
    t.trace = s.trace ++ [.l0] ++ txnEvents [0x40#8] ++ txnEvents (0xC0#8 :: (List.range s.size).map s.cell)
      ++ txnEvents [0x80#8 ||| (s.intensity.zeroExtend 8 &&& 0x7#8) ||| 0x08#8] ∧
    t.frames = s.frames ++ [[0x40#8], 0xC0#8 :: (List.range s.size).map s.cell,
      [0x80#8 ||| (s.intensity.zeroExtend 8 &&& 0x7#8) ||| 0x08#8]] ∧
    t.clockO = .high ∧ t.dataO = .high ∧
    t = { s with trace := t.trace, frames := t.frames, clockO := t.clockO, dataO := t.dataO, sh := t.sh,
                 bitcnt := t.bitcnt, dly := t.dly, inited := true, lineOe := true }

/-- 43_refresh_orchestration.md R100, 70_reset_and_hazards.md R129: the first INIT after reset shows a blank display: N bytes 0x00. -/
def Obligations.InitAfterResetSendsBlankCells : Prop :=
  ∀ (a : Byte) (p : Params), ∃ t, exec (.init a) (State.resetWith p) = .next t ∧
    t.frames = [[0x40#8], 0xC0#8 :: List.replicate p.n.toNat 0x00#8, [0x88#8 + p.intensity.zeroExtend 8]]

/-- 30_encoding.md R53, R54, 42_protocol_driver.md R91: CMD_DATA_AUTOINC, CMD_ADDR_FIRST and CMD_DISPLAY_CTRL send their transaction
and change nothing but the line registers, the serializer registers and the trace. -/
def Obligations.WireCommandsSendTheirTransactions : Prop :=
  ∀ (i : Instr) (bs : List Byte) (s : State), s.inited = true →
    ((i = .cmdDataAutoinc ∧ bs = [0x40#8]) ∨ (i = .cmdAddrFirst ∧ bs = 0xC0#8 :: (List.range s.size).map s.cell) ∨
      ∃ k : BitVec 3, i = .cmdDisplayCtrl k ∧ bs = [0x88#8 + k.zeroExtend 8]) →
    ∃ t, exec i s = .next t ∧ t.trace = s.trace ++ txnEvents bs ∧ t.frames = s.frames ++ [bs] ∧
      t.clockO = .high ∧ t.dataO = .high ∧
      t = { s with trace := t.trace, frames := t.frames, clockO := t.clockO, dataO := t.dataO, sh := t.sh,
                   bitcnt := t.bitcnt, dly := t.dly }

/-- 42_protocol_driver.md R86: the bit cell; a byte transfer is the cells of its bits, bit 0 first, and the settle delay, 65 events of
which 33 are waits; the shift register holds `b >> i` before cell `i`, and 0 after the eighth; CLOCK is left Low and DATA at bit 7. -/
def Obligations.ByteTransferSpellsItsBits : Prop :=
  (∀ x : Bool, cellEvents x = [.c0, .w, (if x then .d1 else .d0), .w, .c1, .w, .c0, .w]) ∧
  ∀ b : Byte,
    (sendByteEvents b).length = 65 ∧ waits (sendByteEvents b) = 33 ∧ lineWrites (sendByteEvents b) = 32 ∧
    (∀ l : Level, (sendByteEvents b).foldl clockAfter l = .low ∧
      (sendByteEvents b).foldl dataAfter l = if b.getLsbD 7 then .high else .low) ∧
    sendByteEvents b = (List.range 8).flatMap (fun i => cellEvents (b.getLsbD i)) ++ [.w] ∧
    (∀ i, i ≤ 8 → shifted^[i] b = b >>> i) ∧ shifted^[8] b = 0#8

/-- 42_protocol_driver.md R97: the counts of events, waits and line writes. -/
def Obligations.EventCounts : Prop :=
  (startEvents.length = 2 ∧ waits startEvents = 1) ∧ (stopEvents.length = 6 ∧ waits stopEvents = 3) ∧
  (∀ b : Byte, (sendByteEvents b).length = 65 ∧ waits (sendByteEvents b) = 33) ∧
  (∀ bs : List Byte, (txnEvents bs).length = 8 + 65 * bs.length ∧ waits (txnEvents bs) = 4 + 33 * bs.length) ∧
  (∀ (a : Byte) (s t : State), exec (.display a) s = .next t → ∃ es, t.trace = s.trace ++ es ∧
    es.length = 219 + 65 * s.size ∧ waits es = 111 + 33 * s.size ∧ lineWrites es = 108 + 32 * s.size)

/-- 42_protocol_driver.md R95: in a transaction that starts from bus idle DATA changes while CLOCK is High at exactly two places, the
fall at START and the rise at STOP, every other write of DATA happens while CLOCK is Low, and CLOCK rises `8k + 1` times, once per bit
cell and once in STOP. -/
def Obligations.DataChangesOnlyAtStartAndStop : Prop :=
  (∀ bs : List Byte, bs ≠ [] →
    dataChangesWhileHigh .high .high (txnEvents bs) = [.low, .high] ∧ dataWritesWhileHigh .high (txnEvents bs) = [.low, .high] ∧
    clockRises .high (txnEvents bs) = 8 * bs.length + 1) ∧
  (∀ (l : Level) (x : Bool), clockRises l (cellEvents x) = 1) ∧ clockRises .low stopEvents = 1 ∧
  dataChangesWhileHigh .high .high startEvents = [.low] ∧ ∀ l : Level, dataChangesWhileHigh .low l stopEvents = [.high]

/-- 43_refresh_orchestration.md R101, 70_reset_and_hazards.md R135: INIT's first transaction has no START edge; its second and third
have one. -/
def Obligations.InitFirstTransactionHasNoStartEdge : Prop :=
  ∀ (a : Byte) (s t : State), exec (.init a) s = .next t → ∃ es, t.trace = s.trace ++ .l0 :: es ∧
    dataChangesWhileHigh .low .low es = [.high, .low, .high, .low, .high] ∧ clockRises .low es = 8 * s.size + 27

/-- 42_protocol_driver.md R96: the frame view is well defined, for two frame lists with the same events are the same. -/
def Obligations.EventsDetermineTheFrames : Prop :=
  ∀ fs gs : List (List Byte), framesEvents fs = framesEvents gs → fs = gs

/-- 42_protocol_driver.md R99, 20_memory.md R39: two DISPLAYs with no write between them append equal events. -/
def Obligations.RepeatedDisplaySendsTheSame : Prop :=
  ∀ (a b : Byte) (s : State), s.inited = true → ∃ t u es, exec (.display a) s = .next t ∧ exec (.display b) t = .next u ∧
    t.trace = s.trace ++ es ∧ u.trace = t.trace ++ es ∧ es ≠ []

/-- 43_refresh_orchestration.md R105: a TICK without a callback blanks the display. -/
def Obligations.TickWithoutCallbackBlanksTheDisplay : Prop :=
  ∀ s : State, s.inited = true → ∃ t, runInstrs (tickOps []) s = .next t ∧ (∀ k, t.cell k = 0x00#8) ∧
    t.frames = s.frames ++ [[0x40#8], 0xC0#8 :: List.replicate s.size 0x00#8, [0x88#8 + s.intensity.zeroExtend 8]]

/-- 43_refresh_orchestration.md R106: two TICKs with the same body of PRINTs give the same Framebuffer and the same frames. -/
def Obligations.SameTickBodySendsTheSameFrames : Prop :=
  ∀ (s : State) (prints : List (Pos × List Byte)), s.inited = true →
    ∃ t u fs, runInstrs (tickOps (prints.flatMap fun x => printOps x.1 x.2)) s = .next t ∧
      runInstrs (tickOps (prints.flatMap fun x => printOps x.1 x.2)) t = .next u ∧
      u.fb = t.fb ∧ t.frames = s.frames ++ fs ∧ u.frames = t.frames ++ fs ∧ fs.length = 3

/-! ## The clocked form -/

/-- 70_reset_and_hazards.md R142, R143, 10_state.md R16: from the edge that accepts DISPLAY, the serializer reaches exactly the state
that the atomic DISPLAY gives, in `(111 + 33N) × T_CYCLES` steps of the clock, which last at least `(111 + 33N) × T`. The two forms are
log entry 8, waits without jitter log entry 13, no extra clock period log entry 16. -/
def Obligations.ClockedDisplayMeetsTheAtomicOne : Prop :=
  ∀ (a : Byte) (s : State), s.params.Valid → s.rst = false → s.inited = true → IdleOk s →
    ∃ t, exec (.display a) s = .next t ∧
      Host.Core.run core ((111 + 33 * s.size) * s.params.tCycles) s.acceptDisplay = .next t ∧
      (111 + 33 * s.size) * s.params.tNanos ≤ (111 + 33 * s.size) * s.params.tCycles * s.params.periodNanos

/-- The same for INIT (43_refresh_orchestration.md R100, 70_reset_and_hazards.md R140); the same log entries. -/
def Obligations.ClockedInitMeetsTheAtomicOne : Prop :=
  ∀ (a : Byte) (s : State), s.params.Valid → s.rst = false → s.inited = false → IdleOk s →
    ∃ t, exec (.init a) s = .next t ∧
      Host.Core.run core ((111 + 33 * s.size) * s.params.tCycles) s.acceptInit = .next t

/-! ## Invariants that every step keeps -/

/-- 10_state.md R13, 20_memory.md R36: every step keeps the Framebuffer in its canonical form and inside `0..N−1`. -/
def Obligations.StepKeepsTheFramebufferInBounds : Prop :=
  ∀ s t : State, FbOk s → step s = .next t → FbOk t

/-- 41_text_formatter.md R79: every step keeps the invariant of a print operation. -/
def Obligations.StepKeepsThePrintInvariant : Prop :=
  ∀ s t : State, PrintOk s → step s = .next t → PrintOk t

/-- 42_protocol_driver.md R94, R96: between operations the trace is the setup event and the transactions of the frame view, and the
lines rest in bus idle from setup on; every step keeps that. -/
def Obligations.StepKeepsTheWireInvariant : Prop :=
  ∀ s t : State, WireOk s → step s = .next t → WireOk t

/-- 10_state.md R24: while the lines are driven their levels are those of the trace; every step keeps that, in the middle of an
operation too. -/
def Obligations.StepKeepsTheLinesWithTheTrace : Prop :=
  ∀ s t : State, LinesOk s → step s = .next t → LinesOk t

/-- 30_encoding.md R52, R55, R57: only the block's frames are ever sent, and none of them begins with 0x44. -/
def Obligations.StepSendsOnlyCommandFrames : Prop :=
  (∀ s t : State, FramesOk s → step s = .next t → FramesOk t) ∧
  ∀ (n : Nat) (f : List Byte), CommandFrame n f → f.head? ≠ some 0x44#8

/-- 10_state.md R18, 00_scope.md R5: nothing writes the intensity register after reset, and nothing writes the parameters. -/
def Obligations.StepKeepsIntensityAndParameters : Prop :=
  ∀ s t : State, IntensityOk s → step s = .next t → IntensityOk t ∧ t.params = s.params

/-- The state after reset meets the six invariants above. -/
def Obligations.ResetMeetsTheInvariants : Prop :=
  ∀ p : Params, FbOk (State.resetWith p) ∧ PrintOk (State.resetWith p) ∧ WireOk (State.resetWith p) ∧
    LinesOk (State.resetWith p) ∧ FramesOk (State.resetWith p) ∧ IntensityOk (State.resetWith p)

/-! ## Rules of the whole machine -/

/-- 60_exceptions.md R114, 10_state.md R13: no instruction and no step ends in a fault. -/
def Obligations.NothingEverFaults : Prop :=
  (∀ (i : Instr) (s : State) (f : Fault), exec i s ≠ .fault f) ∧ ∀ (s : State) (f : Fault), step s ≠ .fault f

/-- 10_state.md R24: without a reset the wire trace and the frame view only grow. -/
def Obligations.TraceOnlyGrows : Prop :=
  ∀ s t : State, s.rst = false → step s = .next t →
    (∃ es, t.trace = s.trace ++ es) ∧ ∃ fs, t.frames = s.frames ++ fs

/-- 10_state.md R17, 60_exceptions.md R118: only a character sets `ovf`, only PBEGIN clears it. That a character row
runs by itself is log entry 10 (DESIGN CHOICE). -/
def Obligations.OverflowFlagSetByCharactersClearedByPbegin : Prop :=
  ∀ (i : Instr) (s t : State), exec i s = .next t →
    (s.ovf = false → t.ovf = true → i.isCharacter = true) ∧ (s.ovf = true → t.ovf = false → ∃ p, i = .pbegin p)

/-- 60_exceptions.md R118: no operation but PBEGIN and the characters reads or writes `ovf`. -/
def Obligations.OtherOperationsDoNotSeeOverflow : Prop :=
  ∀ (i : Instr) (s : State) (b : Bool), i.isCharacter = false → (∀ p, i ≠ .pbegin p) →
    exec i { s with ovf := b } =
      match exec i s with
      | .next t => .next { t with ovf := b }
      | .fault f => .fault f
      | .refused r => .refused r

/-- 42_protocol_driver.md R94, 41_text_formatter.md R68, R69: no operation of the Text Formatter writes a line, a serializer register,
the trace, the mode of setup or the intensity; PUTC's frame is that of 41_text_formatter.md R70 to R75, and that a character row runs by
itself is log entry 10 (DESIGN CHOICE). -/
def Obligations.FormatterDoesNotTouchTheWire : Prop :=
  ∀ (i : Instr) (s t : State), (i.isCharacter = true ∨ (∃ a, i = .clear a) ∨ ∃ p, i = .pbegin p) → exec i s = .next t →
    t = { s with fb := t.fb, start := t.start, cursor := t.cursor, ovf := t.ovf }

/-! ## Operations without a meaning -/

/-- 70_reset_and_hazards.md R131 (a): before setup every operation but INIT is refused (the three rows without a meaning in any state
are refused by names of their own). R131 (a) names CLEAR, PBEGIN, PUTC and DISPLAY; that the character rows and the wire commands
are refused too is log entry 9 (DESIGN CHOICE). -/
def Obligations.OperationsBeforeInitAreRefused : Prop :=
  ∀ (i : Instr) (s : State), s.inited = false → (∀ a, i ≠ .init a) → i.hasNoMeaning = false →
    exec i s = .refused .notInitialised

/-- 70_reset_and_hazards.md R131 (b), 43_refresh_orchestration.md R102: a second INIT is refused. -/
def Obligations.SecondInitIsRefused : Prop :=
  ∀ (a : Byte) (s : State), s.inited = true → exec (.init a) s = .refused .alreadyInitialised

/-- 30_encoding.md R46, 70_reset_and_hazards.md R131 (c): RESERVED_101 and RESERVED_11x are refused in every state, and so is every
accepted word whose opcode is 101, 110 or 111, with that opcode. -/
def Obligations.ReservedOpcodesAreRefused : Prop :=
  (∀ (arg : Byte) (s : State), exec (.reserved101 arg) s = .refused (.reservedOpcode 0b101#3)) ∧
  (∀ (arg : BitVec 9) (s : State), exec (.reserved11x arg) s = .refused (.reservedOpcode (0b11#2 ++ arg.extractLsb' 8 1))) ∧
  ∀ (w : CmdWord) (s : State) (rest : List OpWord), 5 ≤ (w.extractLsb' 8 3).toNat → s.rst = false → s.busy = false →
    s.pending = .host w :: rest → step s = .refused (.reservedOpcode (w.extractLsb' 8 3))

/-- 30_encoding.md R55: the wire byte 0x44 has no role, and no instruction emits it as a command byte; that CMD_0x44 is refused in
every state is the model's choice, log entry 9. -/
def Obligations.WireByteWithoutRoleIsRefused : Prop :=
  (∀ s : State, exec .cmd0x44 s = .refused (.noWireRole 0x44#8)) ∧
  (∀ (s : State) (rest : List OpWord), s.rst = false → s.busy = false → s.pending = .wire 0x44#8 :: rest →
    step s = .refused (.noWireRole 0x44#8)) ∧
  ∀ (i : Instr) (s t : State), exec i s = .next t →
    ∃ fs : List (List Byte), t.frames = s.frames ++ fs ∧ ∀ f ∈ fs, f.head? ≠ some 0x44#8

/-! ## The busy period of the short operations -/

/-- 70_reset_and_hazards.md R143, R140, 10_state.md R23: in the clocked form CLEAR, PBEGIN and PUTC keep `cmd_ready = 0` for exactly one
clock period, after which the block is in the state that the atomic form gives and ready again. The two forms are log entry 8, and that
the effect is written on the accepting edge is log entry 16 (DESIGN CHOICE). -/
def Obligations.ShortOperationsAreBusyForOnePeriod : Prop :=
  ∀ (i : Instr) (s : State), ((∃ a, i = .clear a) ∨ (∃ p, i = .pbegin p) ∨ ∃ c, i = .putc c) →
    s.rst = false → s.inited = true → IdleOk s →
    ∃ t u, exec i s = .next t ∧ s.acceptShort i = .next u ∧ u.cmdReady = false ∧ step u = .next t ∧ t.cmdReady = true
end

