-- ==== Sys2Proof/Laws/State.lean ====
section
/-! SUPPORT. One lemma per field per named update of State: no later proof unfolds a record update. -/

namespace Sys2Proof.Machine

/-! ### `clearCells` -/

@[simp] theorem State.clearCells_fb (s : State) : (s.clearCells).fb = [] := rfl
@[simp] theorem State.clearCells_start (s : State) : (s.clearCells).start = s.start := rfl
@[simp] theorem State.clearCells_cursor (s : State) : (s.clearCells).cursor = s.cursor := rfl
@[simp] theorem State.clearCells_ovf (s : State) : (s.clearCells).ovf = s.ovf := rfl
@[simp] theorem State.clearCells_intensity (s : State) : (s.clearCells).intensity = s.intensity := rfl
@[simp] theorem State.clearCells_clockO (s : State) : (s.clearCells).clockO = s.clockO := rfl
@[simp] theorem State.clearCells_dataO (s : State) : (s.clearCells).dataO = s.dataO := rfl
@[simp] theorem State.clearCells_lineOe (s : State) : (s.clearCells).lineOe = s.lineOe := rfl
@[simp] theorem State.clearCells_inited (s : State) : (s.clearCells).inited = s.inited := rfl
@[simp] theorem State.clearCells_sh (s : State) : (s.clearCells).sh = s.sh := rfl
@[simp] theorem State.clearCells_bitcnt (s : State) : (s.clearCells).bitcnt = s.bitcnt := rfl
@[simp] theorem State.clearCells_dly (s : State) : (s.clearCells).dly = s.dly := rfl
@[simp] theorem State.clearCells_seq (s : State) : (s.clearCells).seq = s.seq := rfl
@[simp] theorem State.clearCells_busy (s : State) : (s.clearCells).busy = s.busy := rfl
@[simp] theorem State.clearCells_trace (s : State) : (s.clearCells).trace = s.trace := rfl
@[simp] theorem State.clearCells_frames (s : State) : (s.clearCells).frames = s.frames := rfl
@[simp] theorem State.clearCells_params (s : State) : (s.clearCells).params = s.params := rfl
@[simp] theorem State.clearCells_pending (s : State) : (s.clearCells).pending = s.pending := rfl
@[simp] theorem State.clearCells_rst (s : State) : (s.clearCells).rst = s.rst := rfl

/-! ### `storeCell` -/

@[simp] theorem State.storeCell_fb (s : State) (k : Nat) (v : Byte) : (s.storeCell k v).fb = Memory.write s.fb k v := rfl
@[simp] theorem State.storeCell_start (s : State) (k : Nat) (v : Byte) : (s.storeCell k v).start = s.start := rfl
@[simp] theorem State.storeCell_cursor (s : State) (k : Nat) (v : Byte) : (s.storeCell k v).cursor = s.cursor := rfl
@[simp] theorem State.storeCell_ovf (s : State) (k : Nat) (v : Byte) : (s.storeCell k v).ovf = s.ovf := rfl
@[simp] theorem State.storeCell_intensity (s : State) (k : Nat) (v : Byte) : (s.storeCell k v).intensity = s.intensity := rfl
@[simp] theorem State.storeCell_clockO (s : State) (k : Nat) (v : Byte) : (s.storeCell k v).clockO = s.clockO := rfl
@[simp] theorem State.storeCell_dataO (s : State) (k : Nat) (v : Byte) : (s.storeCell k v).dataO = s.dataO := rfl
@[simp] theorem State.storeCell_lineOe (s : State) (k : Nat) (v : Byte) : (s.storeCell k v).lineOe = s.lineOe := rfl
@[simp] theorem State.storeCell_inited (s : State) (k : Nat) (v : Byte) : (s.storeCell k v).inited = s.inited := rfl
@[simp] theorem State.storeCell_sh (s : State) (k : Nat) (v : Byte) : (s.storeCell k v).sh = s.sh := rfl
@[simp] theorem State.storeCell_bitcnt (s : State) (k : Nat) (v : Byte) : (s.storeCell k v).bitcnt = s.bitcnt := rfl
@[simp] theorem State.storeCell_dly (s : State) (k : Nat) (v : Byte) : (s.storeCell k v).dly = s.dly := rfl
@[simp] theorem State.storeCell_seq (s : State) (k : Nat) (v : Byte) : (s.storeCell k v).seq = s.seq := rfl
@[simp] theorem State.storeCell_busy (s : State) (k : Nat) (v : Byte) : (s.storeCell k v).busy = s.busy := rfl
@[simp] theorem State.storeCell_trace (s : State) (k : Nat) (v : Byte) : (s.storeCell k v).trace = s.trace := rfl
@[simp] theorem State.storeCell_frames (s : State) (k : Nat) (v : Byte) : (s.storeCell k v).frames = s.frames := rfl
@[simp] theorem State.storeCell_params (s : State) (k : Nat) (v : Byte) : (s.storeCell k v).params = s.params := rfl
@[simp] theorem State.storeCell_pending (s : State) (k : Nat) (v : Byte) : (s.storeCell k v).pending = s.pending := rfl
@[simp] theorem State.storeCell_rst (s : State) (k : Nat) (v : Byte) : (s.storeCell k v).rst = s.rst := rfl

/-! ### `setCursor` -/

@[simp] theorem State.setCursor_fb (s : State) (k : Nat) : (s.setCursor k).fb = s.fb := rfl
@[simp] theorem State.setCursor_start (s : State) (k : Nat) : (s.setCursor k).start = s.start := rfl
@[simp] theorem State.setCursor_cursor (s : State) (k : Nat) : (s.setCursor k).cursor = BitVec.ofNat 8 k := rfl
@[simp] theorem State.setCursor_ovf (s : State) (k : Nat) : (s.setCursor k).ovf = s.ovf := rfl
@[simp] theorem State.setCursor_intensity (s : State) (k : Nat) : (s.setCursor k).intensity = s.intensity := rfl
@[simp] theorem State.setCursor_clockO (s : State) (k : Nat) : (s.setCursor k).clockO = s.clockO := rfl
@[simp] theorem State.setCursor_dataO (s : State) (k : Nat) : (s.setCursor k).dataO = s.dataO := rfl
@[simp] theorem State.setCursor_lineOe (s : State) (k : Nat) : (s.setCursor k).lineOe = s.lineOe := rfl
@[simp] theorem State.setCursor_inited (s : State) (k : Nat) : (s.setCursor k).inited = s.inited := rfl
@[simp] theorem State.setCursor_sh (s : State) (k : Nat) : (s.setCursor k).sh = s.sh := rfl
@[simp] theorem State.setCursor_bitcnt (s : State) (k : Nat) : (s.setCursor k).bitcnt = s.bitcnt := rfl
@[simp] theorem State.setCursor_dly (s : State) (k : Nat) : (s.setCursor k).dly = s.dly := rfl
@[simp] theorem State.setCursor_seq (s : State) (k : Nat) : (s.setCursor k).seq = s.seq := rfl
@[simp] theorem State.setCursor_busy (s : State) (k : Nat) : (s.setCursor k).busy = s.busy := rfl
@[simp] theorem State.setCursor_trace (s : State) (k : Nat) : (s.setCursor k).trace = s.trace := rfl
@[simp] theorem State.setCursor_frames (s : State) (k : Nat) : (s.setCursor k).frames = s.frames := rfl
@[simp] theorem State.setCursor_params (s : State) (k : Nat) : (s.setCursor k).params = s.params := rfl
@[simp] theorem State.setCursor_pending (s : State) (k : Nat) : (s.setCursor k).pending = s.pending := rfl
@[simp] theorem State.setCursor_rst (s : State) (k : Nat) : (s.setCursor k).rst = s.rst := rfl

/-! ### `loadPrint` -/

@[simp] theorem State.loadPrint_fb (s : State) (p : Pos) : (s.loadPrint p).fb = s.fb := rfl
@[simp] theorem State.loadPrint_start (s : State) (p : Pos) : (s.loadPrint p).start = p := rfl
@[simp] theorem State.loadPrint_cursor (s : State) (p : Pos) : (s.loadPrint p).cursor = p := rfl
@[simp] theorem State.loadPrint_ovf (s : State) (p : Pos) : (s.loadPrint p).ovf = s.ovf := rfl
@[simp] theorem State.loadPrint_intensity (s : State) (p : Pos) : (s.loadPrint p).intensity = s.intensity := rfl
@[simp] theorem State.loadPrint_clockO (s : State) (p : Pos) : (s.loadPrint p).clockO = s.clockO := rfl
@[simp] theorem State.loadPrint_dataO (s : State) (p : Pos) : (s.loadPrint p).dataO = s.dataO := rfl
@[simp] theorem State.loadPrint_lineOe (s : State) (p : Pos) : (s.loadPrint p).lineOe = s.lineOe := rfl
@[simp] theorem State.loadPrint_inited (s : State) (p : Pos) : (s.loadPrint p).inited = s.inited := rfl
@[simp] theorem State.loadPrint_sh (s : State) (p : Pos) : (s.loadPrint p).sh = s.sh := rfl
@[simp] theorem State.loadPrint_bitcnt (s : State) (p : Pos) : (s.loadPrint p).bitcnt = s.bitcnt := rfl
@[simp] theorem State.loadPrint_dly (s : State) (p : Pos) : (s.loadPrint p).dly = s.dly := rfl
@[simp] theorem State.loadPrint_seq (s : State) (p : Pos) : (s.loadPrint p).seq = s.seq := rfl
@[simp] theorem State.loadPrint_busy (s : State) (p : Pos) : (s.loadPrint p).busy = s.busy := rfl
@[simp] theorem State.loadPrint_trace (s : State) (p : Pos) : (s.loadPrint p).trace = s.trace := rfl
@[simp] theorem State.loadPrint_frames (s : State) (p : Pos) : (s.loadPrint p).frames = s.frames := rfl
@[simp] theorem State.loadPrint_params (s : State) (p : Pos) : (s.loadPrint p).params = s.params := rfl
@[simp] theorem State.loadPrint_pending (s : State) (p : Pos) : (s.loadPrint p).pending = s.pending := rfl
@[simp] theorem State.loadPrint_rst (s : State) (p : Pos) : (s.loadPrint p).rst = s.rst := rfl

/-! ### `raiseOverflow` -/

@[simp] theorem State.raiseOverflow_fb (s : State) : (s.raiseOverflow).fb = s.fb := rfl
@[simp] theorem State.raiseOverflow_start (s : State) : (s.raiseOverflow).start = s.start := rfl
@[simp] theorem State.raiseOverflow_cursor (s : State) : (s.raiseOverflow).cursor = s.cursor := rfl
@[simp] theorem State.raiseOverflow_ovf (s : State) : (s.raiseOverflow).ovf = true := rfl
@[simp] theorem State.raiseOverflow_intensity (s : State) : (s.raiseOverflow).intensity = s.intensity := rfl
@[simp] theorem State.raiseOverflow_clockO (s : State) : (s.raiseOverflow).clockO = s.clockO := rfl
@[simp] theorem State.raiseOverflow_dataO (s : State) : (s.raiseOverflow).dataO = s.dataO := rfl
@[simp] theorem State.raiseOverflow_lineOe (s : State) : (s.raiseOverflow).lineOe = s.lineOe := rfl
@[simp] theorem State.raiseOverflow_inited (s : State) : (s.raiseOverflow).inited = s.inited := rfl
@[simp] theorem State.raiseOverflow_sh (s : State) : (s.raiseOverflow).sh = s.sh := rfl
@[simp] theorem State.raiseOverflow_bitcnt (s : State) : (s.raiseOverflow).bitcnt = s.bitcnt := rfl
@[simp] theorem State.raiseOverflow_dly (s : State) : (s.raiseOverflow).dly = s.dly := rfl
@[simp] theorem State.raiseOverflow_seq (s : State) : (s.raiseOverflow).seq = s.seq := rfl
@[simp] theorem State.raiseOverflow_busy (s : State) : (s.raiseOverflow).busy = s.busy := rfl
@[simp] theorem State.raiseOverflow_trace (s : State) : (s.raiseOverflow).trace = s.trace := rfl
@[simp] theorem State.raiseOverflow_frames (s : State) : (s.raiseOverflow).frames = s.frames := rfl
@[simp] theorem State.raiseOverflow_params (s : State) : (s.raiseOverflow).params = s.params := rfl
@[simp] theorem State.raiseOverflow_pending (s : State) : (s.raiseOverflow).pending = s.pending := rfl
@[simp] theorem State.raiseOverflow_rst (s : State) : (s.raiseOverflow).rst = s.rst := rfl

/-! ### `returnFromOverflow` -/

@[simp] theorem State.returnFromOverflow_fb (s : State) : (s.returnFromOverflow).fb = s.fb := rfl
@[simp] theorem State.returnFromOverflow_start (s : State) : (s.returnFromOverflow).start = s.start := rfl
@[simp] theorem State.returnFromOverflow_cursor (s : State) : (s.returnFromOverflow).cursor = s.cursor := rfl
@[simp] theorem State.returnFromOverflow_ovf (s : State) : (s.returnFromOverflow).ovf = false := rfl
@[simp] theorem State.returnFromOverflow_intensity (s : State) : (s.returnFromOverflow).intensity = s.intensity := rfl
@[simp] theorem State.returnFromOverflow_clockO (s : State) : (s.returnFromOverflow).clockO = s.clockO := rfl
@[simp] theorem State.returnFromOverflow_dataO (s : State) : (s.returnFromOverflow).dataO = s.dataO := rfl
@[simp] theorem State.returnFromOverflow_lineOe (s : State) : (s.returnFromOverflow).lineOe = s.lineOe := rfl
@[simp] theorem State.returnFromOverflow_inited (s : State) : (s.returnFromOverflow).inited = s.inited := rfl
@[simp] theorem State.returnFromOverflow_sh (s : State) : (s.returnFromOverflow).sh = s.sh := rfl
@[simp] theorem State.returnFromOverflow_bitcnt (s : State) : (s.returnFromOverflow).bitcnt = s.bitcnt := rfl
@[simp] theorem State.returnFromOverflow_dly (s : State) : (s.returnFromOverflow).dly = s.dly := rfl
@[simp] theorem State.returnFromOverflow_seq (s : State) : (s.returnFromOverflow).seq = s.seq := rfl
@[simp] theorem State.returnFromOverflow_busy (s : State) : (s.returnFromOverflow).busy = s.busy := rfl
@[simp] theorem State.returnFromOverflow_trace (s : State) : (s.returnFromOverflow).trace = s.trace := rfl
@[simp] theorem State.returnFromOverflow_frames (s : State) : (s.returnFromOverflow).frames = s.frames := rfl
@[simp] theorem State.returnFromOverflow_params (s : State) : (s.returnFromOverflow).params = s.params := rfl
@[simp] theorem State.returnFromOverflow_pending (s : State) : (s.returnFromOverflow).pending = s.pending := rfl
@[simp] theorem State.returnFromOverflow_rst (s : State) : (s.returnFromOverflow).rst = s.rst := rfl

/-! ### `emit` -/

@[simp] theorem State.emit_fb (s : State) (es : List WireEvent) : (s.emit es).fb = s.fb := rfl
@[simp] theorem State.emit_start (s : State) (es : List WireEvent) : (s.emit es).start = s.start := rfl
@[simp] theorem State.emit_cursor (s : State) (es : List WireEvent) : (s.emit es).cursor = s.cursor := rfl
@[simp] theorem State.emit_ovf (s : State) (es : List WireEvent) : (s.emit es).ovf = s.ovf := rfl
@[simp] theorem State.emit_intensity (s : State) (es : List WireEvent) : (s.emit es).intensity = s.intensity := rfl
@[simp] theorem State.emit_clockO (s : State) (es : List WireEvent) : (s.emit es).clockO = es.foldl clockAfter s.clockO := rfl
@[simp] theorem State.emit_dataO (s : State) (es : List WireEvent) : (s.emit es).dataO = es.foldl dataAfter s.dataO := rfl
@[simp] theorem State.emit_lineOe (s : State) (es : List WireEvent) : (s.emit es).lineOe = s.lineOe := rfl
@[simp] theorem State.emit_inited (s : State) (es : List WireEvent) : (s.emit es).inited = s.inited := rfl
@[simp] theorem State.emit_sh (s : State) (es : List WireEvent) : (s.emit es).sh = s.sh := rfl
@[simp] theorem State.emit_bitcnt (s : State) (es : List WireEvent) : (s.emit es).bitcnt = s.bitcnt := rfl
@[simp] theorem State.emit_dly (s : State) (es : List WireEvent) : (s.emit es).dly = s.dly := rfl
@[simp] theorem State.emit_seq (s : State) (es : List WireEvent) : (s.emit es).seq = s.seq := rfl
@[simp] theorem State.emit_busy (s : State) (es : List WireEvent) : (s.emit es).busy = s.busy := rfl
@[simp] theorem State.emit_trace (s : State) (es : List WireEvent) : (s.emit es).trace = s.trace ++ es := rfl
@[simp] theorem State.emit_frames (s : State) (es : List WireEvent) : (s.emit es).frames = s.frames := rfl
@[simp] theorem State.emit_params (s : State) (es : List WireEvent) : (s.emit es).params = s.params := rfl
@[simp] theorem State.emit_pending (s : State) (es : List WireEvent) : (s.emit es).pending = s.pending := rfl
@[simp] theorem State.emit_rst (s : State) (es : List WireEvent) : (s.emit es).rst = s.rst := rfl

/-! ### `txn` -/

@[simp] theorem State.txn_fb (s : State) (bs : List Byte) : (s.txn bs).fb = s.fb := rfl
@[simp] theorem State.txn_start (s : State) (bs : List Byte) : (s.txn bs).start = s.start := rfl
@[simp] theorem State.txn_cursor (s : State) (bs : List Byte) : (s.txn bs).cursor = s.cursor := rfl
@[simp] theorem State.txn_ovf (s : State) (bs : List Byte) : (s.txn bs).ovf = s.ovf := rfl
@[simp] theorem State.txn_intensity (s : State) (bs : List Byte) : (s.txn bs).intensity = s.intensity := rfl
@[simp] theorem State.txn_clockO (s : State) (bs : List Byte) : (s.txn bs).clockO = (txnEvents bs).foldl clockAfter s.clockO := rfl
@[simp] theorem State.txn_dataO (s : State) (bs : List Byte) : (s.txn bs).dataO = (txnEvents bs).foldl dataAfter s.dataO := rfl
@[simp] theorem State.txn_lineOe (s : State) (bs : List Byte) : (s.txn bs).lineOe = s.lineOe := rfl
@[simp] theorem State.txn_inited (s : State) (bs : List Byte) : (s.txn bs).inited = s.inited := rfl
@[simp] theorem State.txn_sh (s : State) (bs : List Byte) : (s.txn bs).sh = 0#8 := rfl
@[simp] theorem State.txn_bitcnt (s : State) (bs : List Byte) : (s.txn bs).bitcnt = 0#3 := rfl
@[simp] theorem State.txn_dly (s : State) (bs : List Byte) : (s.txn bs).dly = 0 := rfl
@[simp] theorem State.txn_seq (s : State) (bs : List Byte) : (s.txn bs).seq = s.seq := rfl
@[simp] theorem State.txn_busy (s : State) (bs : List Byte) : (s.txn bs).busy = s.busy := rfl
@[simp] theorem State.txn_trace (s : State) (bs : List Byte) : (s.txn bs).trace = s.trace ++ txnEvents bs := rfl
@[simp] theorem State.txn_frames (s : State) (bs : List Byte) : (s.txn bs).frames = s.frames ++ [bs] := rfl
@[simp] theorem State.txn_params (s : State) (bs : List Byte) : (s.txn bs).params = s.params := rfl
@[simp] theorem State.txn_pending (s : State) (bs : List Byte) : (s.txn bs).pending = s.pending := rfl
@[simp] theorem State.txn_rst (s : State) (bs : List Byte) : (s.txn bs).rst = s.rst := rfl

/-! ### `setupLines` -/

@[simp] theorem State.setupLines_fb (s : State) : (s.setupLines).fb = s.fb := rfl
@[simp] theorem State.setupLines_start (s : State) : (s.setupLines).start = s.start := rfl
@[simp] theorem State.setupLines_cursor (s : State) : (s.setupLines).cursor = s.cursor := rfl
@[simp] theorem State.setupLines_ovf (s : State) : (s.setupLines).ovf = s.ovf := rfl
@[simp] theorem State.setupLines_intensity (s : State) : (s.setupLines).intensity = s.intensity := rfl
@[simp] theorem State.setupLines_clockO (s : State) : (s.setupLines).clockO = .low := rfl
@[simp] theorem State.setupLines_dataO (s : State) : (s.setupLines).dataO = .low := rfl
@[simp] theorem State.setupLines_lineOe (s : State) : (s.setupLines).lineOe = true := rfl
@[simp] theorem State.setupLines_inited (s : State) : (s.setupLines).inited = s.inited := rfl
@[simp] theorem State.setupLines_sh (s : State) : (s.setupLines).sh = s.sh := rfl
@[simp] theorem State.setupLines_bitcnt (s : State) : (s.setupLines).bitcnt = s.bitcnt := rfl
@[simp] theorem State.setupLines_dly (s : State) : (s.setupLines).dly = s.dly := rfl
@[simp] theorem State.setupLines_seq (s : State) : (s.setupLines).seq = s.seq := rfl
@[simp] theorem State.setupLines_busy (s : State) : (s.setupLines).busy = s.busy := rfl
@[simp] theorem State.setupLines_trace (s : State) : (s.setupLines).trace = s.trace ++ [.l0] := rfl
@[simp] theorem State.setupLines_frames (s : State) : (s.setupLines).frames = s.frames := rfl
@[simp] theorem State.setupLines_params (s : State) : (s.setupLines).params = s.params := rfl
@[simp] theorem State.setupLines_pending (s : State) : (s.setupLines).pending = s.pending := rfl
@[simp] theorem State.setupLines_rst (s : State) : (s.setupLines).rst = s.rst := rfl

/-! ### `present` -/

@[simp] theorem State.present_fb (s : State) (p : OpWord) : (s.present p).fb = s.fb := rfl
@[simp] theorem State.present_start (s : State) (p : OpWord) : (s.present p).start = s.start := rfl
@[simp] theorem State.present_cursor (s : State) (p : OpWord) : (s.present p).cursor = s.cursor := rfl
@[simp] theorem State.present_ovf (s : State) (p : OpWord) : (s.present p).ovf = s.ovf := rfl
@[simp] theorem State.present_intensity (s : State) (p : OpWord) : (s.present p).intensity = s.intensity := rfl
@[simp] theorem State.present_clockO (s : State) (p : OpWord) : (s.present p).clockO = s.clockO := rfl
@[simp] theorem State.present_dataO (s : State) (p : OpWord) : (s.present p).dataO = s.dataO := rfl
@[simp] theorem State.present_lineOe (s : State) (p : OpWord) : (s.present p).lineOe = s.lineOe := rfl
@[simp] theorem State.present_inited (s : State) (p : OpWord) : (s.present p).inited = s.inited := rfl
@[simp] theorem State.present_sh (s : State) (p : OpWord) : (s.present p).sh = s.sh := rfl
@[simp] theorem State.present_bitcnt (s : State) (p : OpWord) : (s.present p).bitcnt = s.bitcnt := rfl
@[simp] theorem State.present_dly (s : State) (p : OpWord) : (s.present p).dly = s.dly := rfl
@[simp] theorem State.present_seq (s : State) (p : OpWord) : (s.present p).seq = none := rfl
@[simp] theorem State.present_busy (s : State) (p : OpWord) : (s.present p).busy = false := rfl
@[simp] theorem State.present_trace (s : State) (p : OpWord) : (s.present p).trace = s.trace := rfl
@[simp] theorem State.present_frames (s : State) (p : OpWord) : (s.present p).frames = s.frames := rfl
@[simp] theorem State.present_params (s : State) (p : OpWord) : (s.present p).params = s.params := rfl
@[simp] theorem State.present_pending (s : State) (p : OpWord) : (s.present p).pending = p :: s.pending := rfl
@[simp] theorem State.present_rst (s : State) (p : OpWord) : (s.present p).rst = false := rfl

end Sys2Proof.Machine
end

