-- ==== Sys2Proof/Laws/Memory.lean ====
section
/-! SUPPORT. The laws of the Framebuffer memory: read after write, and that a write keeps the canonical form. -/

namespace Sys2Proof.Machine

@[simp] theorem Memory.read_nil (k : Nat) : Memory.read [] k = blankByte := rfl

theorem Memory.read_entry (a : Nat) (v : Byte) (m : Memory) (k : Nat) :
    Memory.read ((a, v) :: m) k = if a = k then v else Memory.read m k := rfl

/-- Nothing is listed below a canonical memory's lowest index. -/
theorem Memory.read_below {lo : Nat} {m : Memory} (h : Memory.wfFrom lo m = true) {k : Nat} (hk : k < lo) :
    Memory.read m k = blankByte := by
  induction m generalizing lo with
  | nil => rfl
  | cons e m ih =>
    obtain ⟨a, v⟩ := e
    simp only [Memory.wfFrom, Bool.and_eq_true, decide_eq_true_eq] at h
    rw [Memory.read_entry, if_neg (by omega), ih h.2 (by omega)]

/-- A canonical memory is canonical from any lower index. -/
theorem Memory.wfFrom_mono {lo hi : Nat} {m : Memory} (hm : Memory.wfFrom hi m = true) (h : lo ≤ hi) :
    Memory.wfFrom lo m = true := by
  cases m with
  | nil => rfl
  | cons e m =>
    obtain ⟨a, v⟩ := e
    simp only [Memory.wfFrom, Bool.and_eq_true, decide_eq_true_eq] at hm ⊢
    exact ⟨⟨by omega, hm.1.2⟩, hm.2⟩

theorem Memory.cons_wfFrom {lo k : Nat} {m : Memory} (v : Byte) (hk : lo ≤ k) (hm : Memory.wfFrom (k + 1) m = true) :
    Memory.wfFrom lo (Memory.cons k v m) = true := by
  unfold Memory.cons
  split
  · exact Memory.wfFrom_mono hm (by omega)
  · simp [Memory.wfFrom, *]

/-- What an entry in front of a memory reads as. -/
theorem Memory.read_cons {k : Nat} {m : Memory} (v : Byte) (hm : Memory.wfFrom (k + 1) m = true) (j : Nat) :
    Memory.read (Memory.cons k v m) j = if k = j then v else Memory.read m j := by
  unfold Memory.cons
  split
  · next h =>
    split
    · next hj => rw [h, Memory.read_below hm (by omega)]
    · rfl
  · rfl

theorem Memory.write_wfFrom {lo : Nat} {m : Memory} (hm : Memory.wfFrom lo m = true) {k : Nat} (hk : lo ≤ k) (v : Byte) :
    Memory.wfFrom lo (Memory.write m k v) = true := by
  induction m generalizing lo with
  | nil => exact Memory.cons_wfFrom v hk rfl
  | cons e m ih =>
    obtain ⟨a, w⟩ := e
    have h := hm
    simp only [Memory.wfFrom, Bool.and_eq_true, decide_eq_true_eq] at h
    simp only [Memory.write]
    split
    · simp [Memory.wfFrom, h.1.1, h.1.2, ih h.2 (by omega)]
    · split
      · next ha => exact Memory.cons_wfFrom v hk (ha ▸ h.2)
      · refine Memory.cons_wfFrom v hk ?_
        simp only [Memory.wfFrom, Bool.and_eq_true, decide_eq_true_eq]
        exact ⟨⟨by omega, h.1.2⟩, h.2⟩

/-- Every write keeps the canonical form. -/
theorem Memory.write_wf {m : Memory} (hm : Memory.wf m = true) (k : Nat) (v : Byte) : Memory.wf (Memory.write m k v) = true :=
  Memory.write_wfFrom hm (Nat.zero_le k) v

theorem Memory.read_writeFrom {lo : Nat} {m : Memory} (hm : Memory.wfFrom lo m = true) (k : Nat) (v : Byte) (j : Nat) :
    Memory.read (Memory.write m k v) j = if k = j then v else Memory.read m j := by
  induction m generalizing lo with
  | nil => exact Memory.read_cons v rfl j
  | cons e m ih =>
    obtain ⟨a, w⟩ := e
    have h := hm
    simp only [Memory.wfFrom, Bool.and_eq_true, decide_eq_true_eq] at h
    simp only [Memory.write]
    split
    · next ha =>
      rw [Memory.read_entry, Memory.read_entry, ih h.2]
      split
      · next haj => rw [if_neg (by omega)]
      · rfl
    · split
      · next ha =>
        rw [Memory.read_cons v (ha ▸ h.2), Memory.read_entry, ha]
        split <;> simp_all
      · next hlt hne =>
        rw [Memory.read_cons v]
        simp only [Memory.wfFrom, Bool.and_eq_true, decide_eq_true_eq]
        exact ⟨⟨by omega, h.1.2⟩, h.2⟩

/-- Read after write: the value written at the index written, the old value at every other. -/
theorem Memory.read_write {m : Memory} (hm : Memory.wf m = true) (k : Nat) (v : Byte) (j : Nat) :
    Memory.read (Memory.write m k v) j = if k = j then v else Memory.read m j :=
  Memory.read_writeFrom hm k v j

/-- A write lists no index but its own and those listed before. -/
theorem Memory.mem_write {m : Memory} {k : Nat} {v : Byte} {e : Host.Cell} (h : e ∈ Memory.write m k v) :
    e.1 = k ∨ e ∈ m := by
  have hcons : ∀ m', e ∈ Memory.cons k v m' → e.1 = k ∨ e ∈ m' := by
    intro m' he
    unfold Memory.cons at he
    split at he
    · exact .inr he
    · rcases List.mem_cons.1 he with rfl | he
      · exact .inl rfl
      · exact .inr he
  induction m with
  | nil => exact hcons [] h
  | cons a m ih =>
    obtain ⟨a, w⟩ := a
    simp only [Memory.write] at h
    split at h
    · rcases List.mem_cons.1 h with rfl | h
      · exact .inr (List.mem_cons_self ..)
      · exact (ih h).imp_right (List.mem_cons_of_mem _)
    · split at h
      · exact (hcons m h).imp_right (List.mem_cons_of_mem _)
      · exact hcons _ h

/-- Writing what an index already reads changes nothing. -/
theorem Memory.write_readFrom {lo : Nat} {m : Memory} (hm : Memory.wfFrom lo m = true) {k : Nat} (_hk : lo ≤ k) :
    Memory.write m k (Memory.read m k) = m := by
  induction m generalizing lo with
  | nil => simp [Memory.write, Memory.cons]
  | cons e m ih =>
    obtain ⟨a, w⟩ := e
    have h := hm
    simp only [Memory.wfFrom, Bool.and_eq_true, decide_eq_true_eq] at h
    simp only [Memory.write, Memory.read_entry]
    split
    · next ha => rw [if_neg (by omega), ih h.2 (by omega)]
    · split
      · next ha => simp [Memory.cons, h.1.2, ha]
      · next hlt hne => simp [Memory.cons, Memory.read_below h.2 (show k < a + 1 by omega)]

theorem Memory.write_read {m : Memory} (hm : Memory.wf m = true) (k : Nat) : Memory.write m k (Memory.read m k) = m :=
  Memory.write_readFrom hm (Nat.zero_le k)

/-- The state after reset holds a canonical memory. -/
theorem reset_memory_wf : Memory.wf State.reset.fb = true := rfl

/-- Read after write on the state. -/
theorem State.cell_storeCell {s : State} (h : Memory.wf s.fb = true) (k : Nat) (v : Byte) (j : Nat) :
    (s.storeCell k v).cell j = if k = j then v else s.cell j :=
  Memory.read_write h k v j

@[simp] theorem State.cell_raiseOverflow (s : State) (k : Nat) : s.raiseOverflow.cell k = s.cell k := rfl

@[simp] theorem State.size_storeCell (s : State) (k : Nat) (v : Byte) : (s.storeCell k v).size = s.size := rfl

@[simp] theorem State.size_raiseOverflow (s : State) : s.raiseOverflow.size = s.size := rfl

@[simp] theorem State.cell_clearCells (s : State) (k : Nat) : s.clearCells.cell k = blankByte := rfl

@[simp] theorem State.size_setCursor (s : State) (k : Nat) : (s.setCursor k).size = s.size := rfl

@[simp] theorem State.cell_setCursor (s : State) (k j : Nat) : (s.setCursor k).cell j = s.cell j := rfl

@[simp] theorem State.cell_txn (s : State) (bs : List Byte) (k : Nat) : (s.txn bs).cell k = s.cell k := rfl

@[simp] theorem State.cells_txn (s : State) (bs : List Byte) : (s.txn bs).cells = s.cells := rfl

@[simp] theorem State.size_txn (s : State) (bs : List Byte) : (s.txn bs).size = s.size := rfl

@[simp] theorem State.cells_setupLines (s : State) : s.setupLines.cells = s.cells := rfl

@[simp] theorem State.cells_length (s : State) : s.cells.length = s.size := by
  simp [State.cells]

end Sys2Proof.Machine
end

