-- ==== Sys2Proof/Laws/Wire.lean ====
section
/-! SUPPORT. What the event sequences do to the lines (42_protocol_driver.md R85, R86, R94). -/

namespace Sys2Proof.Machine

/-- A bit cell leaves CLOCK Low. -/
@[simp] theorem clock_cellEvents (l : Level) (b : Bool) : (cellEvents b).foldl clockAfter l = .low := by
  cases b <;> rfl

/-- The cells leave CLOCK Low if they find it Low. -/
theorem clock_shiftOut (k : Nat) (sh : Byte) : (shiftOut k sh).foldl clockAfter .low = .low := by
  induction k generalizing sh with
  | zero => rfl
  | succ k ih => simp [shiftOut, ih]

/-- A byte transfer leaves CLOCK Low (42_protocol_driver.md R86). -/
@[simp] theorem clock_sendByteEvents (l : Level) (b : Byte) : (sendByteEvents b).foldl clockAfter l = .low := by
  simp [sendByteEvents, shiftOut, clockAfter]

/-- STOP leaves both lines High (42_protocol_driver.md R85). -/
@[simp] theorem clock_stopEvents (l : Level) : stopEvents.foldl clockAfter l = .high := rfl

@[simp] theorem data_stopEvents (l : Level) : stopEvents.foldl dataAfter l = .high := rfl

/-- A transaction leaves the bus idle (42_protocol_driver.md R94). -/
@[simp] theorem clock_txnEvents (l : Level) (bs : List Byte) : (txnEvents bs).foldl clockAfter l = .high := by
  simp [txnEvents, List.foldl_append]

@[simp] theorem data_txnEvents (l : Level) (bs : List Byte) : (txnEvents bs).foldl dataAfter l = .high := by
  simp [txnEvents, List.foldl_append]

@[simp] theorem framesEvents_append (fs gs : List (List Byte)) : framesEvents (fs ++ gs) = framesEvents fs ++ framesEvents gs := by
  simp [framesEvents]

@[simp] theorem framesEvents_single (f : List Byte) : framesEvents [f] = txnEvents f := by
  simp [framesEvents]

/-- No transaction holds the setup event. -/
theorem l0_not_mem_txnEvents (bs : List Byte) : WireEvent.l0 ∉ txnEvents bs := by
  have hcell : ∀ b, WireEvent.l0 ∉ cellEvents b := by decide
  have hshift : ∀ k sh, WireEvent.l0 ∉ shiftOut k sh := by
    intro k
    induction k with
    | zero => simp [shiftOut]
    | succ k ih => intro sh; simp [shiftOut, hcell, ih]
  have hbytes : ∀ bs, WireEvent.l0 ∉ bytesEvents bs := by
    intro bs
    induction bs with
    | nil => simp [bytesEvents]
    | cons b bs ih => simp [bytesEvents, sendByteEvents, hshift, ih]
  simp [txnEvents, startEvents, stopEvents, hbytes]

/-! ### `refresh` -/

@[simp] theorem State.refresh_fb (s : State) : s.refresh.fb = s.fb := by simp only [State.refresh, State.txn_fb]
@[simp] theorem State.refresh_start (s : State) : s.refresh.start = s.start := by simp only [State.refresh, State.txn_start]
@[simp] theorem State.refresh_cursor (s : State) : s.refresh.cursor = s.cursor := by simp only [State.refresh, State.txn_cursor]
@[simp] theorem State.refresh_ovf (s : State) : s.refresh.ovf = s.ovf := by simp only [State.refresh, State.txn_ovf]
@[simp] theorem State.refresh_intensity (s : State) : s.refresh.intensity = s.intensity := by
  simp only [State.refresh, State.txn_intensity]
@[simp] theorem State.refresh_lineOe (s : State) : s.refresh.lineOe = s.lineOe := by simp only [State.refresh, State.txn_lineOe]
@[simp] theorem State.refresh_inited (s : State) : s.refresh.inited = s.inited := by simp only [State.refresh, State.txn_inited]
@[simp] theorem State.refresh_seq (s : State) : s.refresh.seq = s.seq := by simp only [State.refresh, State.txn_seq]
@[simp] theorem State.refresh_busy (s : State) : s.refresh.busy = s.busy := by simp only [State.refresh, State.txn_busy]
@[simp] theorem State.refresh_params (s : State) : s.refresh.params = s.params := by simp only [State.refresh, State.txn_params]
@[simp] theorem State.refresh_pending (s : State) : s.refresh.pending = s.pending := by simp only [State.refresh, State.txn_pending]
@[simp] theorem State.refresh_rst (s : State) : s.refresh.rst = s.rst := by simp only [State.refresh, State.txn_rst]
@[simp] theorem State.refresh_sh (s : State) : s.refresh.sh = 0#8 := by simp only [State.refresh, State.txn_sh]
@[simp] theorem State.refresh_bitcnt (s : State) : s.refresh.bitcnt = 0#3 := by simp only [State.refresh, State.txn_bitcnt]
@[simp] theorem State.refresh_dly (s : State) : s.refresh.dly = 0 := by simp only [State.refresh, State.txn_dly]

/-- A refresh cycle leaves the bus idle (42_protocol_driver.md R94). -/
@[simp] theorem State.refresh_clockO (s : State) : s.refresh.clockO = .high := by simp [State.refresh]
@[simp] theorem State.refresh_dataO (s : State) : s.refresh.dataO = .high := by simp [State.refresh]

/-- A refresh cycle appends its three transactions (42_protocol_driver.md R91). -/
theorem State.refresh_trace (s : State) : s.refresh.trace =
    s.trace ++ txnEvents (s.payload .mode) ++ txnEvents (s.payload .data) ++ txnEvents (s.payload .ctrl) := by
  simp only [State.refresh, State.txn_trace]
theorem State.refresh_frames (s : State) : s.refresh.frames =
    s.frames ++ [s.payload .mode] ++ [s.payload .data] ++ [s.payload .ctrl] := by
  simp only [State.refresh, State.txn_frames]

@[simp] theorem State.size_refresh (s : State) : s.refresh.size = s.size := by simp only [State.refresh, State.size_txn]
@[simp] theorem State.cell_refresh (s : State) (k : Nat) : s.refresh.cell k = s.cell k := by
  simp only [State.refresh, State.cell_txn]
@[simp] theorem State.cells_refresh (s : State) : s.refresh.cells = s.cells := by simp only [State.refresh, State.cells_txn]
@[simp] theorem State.payload_txn (s : State) (bs : List Byte) (x : Txn) : (s.txn bs).payload x = s.payload x := by
  cases x <;> rfl
@[simp] theorem State.payload_refresh (s : State) (x : Txn) : s.refresh.payload x = s.payload x := by
  simp only [State.refresh, State.payload_txn]
@[simp] theorem State.size_setupLines (s : State) : s.setupLines.size = s.size := rfl
@[simp] theorem State.cell_setupLines (s : State) (k : Nat) : s.setupLines.cell k = s.cell k := rfl
@[simp] theorem State.payload_setupLines (s : State) (x : Txn) : s.setupLines.payload x = s.payload x := by
  cases x <;> rfl

/-- A transaction as one record update. -/
theorem State.txn_eq (s : State) (bs : List Byte) : s.txn bs =
    { s with trace := s.trace ++ txnEvents bs, frames := s.frames ++ [bs], clockO := .high, dataO := .high, sh := 0#8,
             bitcnt := 0#3, dly := 0 } := by
  simp only [State.txn, State.emit, clock_txnEvents, data_txnEvents]

/-- A refresh cycle as one record update. -/
theorem State.refresh_eq (s : State) : s.refresh =
    { s with
      trace := s.trace ++ txnEvents (s.payload .mode) ++ txnEvents (s.payload .data) ++ txnEvents (s.payload .ctrl)
      frames := s.frames ++ [s.payload .mode] ++ [s.payload .data] ++ [s.payload .ctrl]
      clockO := .high
      dataO := .high
      sh := 0#8
      bitcnt := 0#3
      dly := 0 } := by
  simp only [State.refresh, State.txn_eq, State.payload, State.cells, State.size]

/-- The Framebuffer registers of two states agree, so the Framebuffer invariant does. -/
theorem FbOk.of_eq {s t : State} (h : FbOk s) (hf : t.fb = s.fb) (hp : t.params = s.params) : FbOk t := by
  unfold FbOk State.size
  rw [hf, hp]
  exact h

/-- The print registers of two states agree, so the invariant of a print operation does. -/
theorem PrintOk.of_eq {s t : State} (h : PrintOk s) (hs : t.start = s.start) (hc : t.cursor = s.cursor)
    (hp : t.params = s.params) : PrintOk t := by
  unfold PrintOk State.cursorIndex State.size
  rw [hs, hc, hp]
  exact h

end Sys2Proof.Machine
end

