-- ==== Sys2Proof/Laws/Ops.lean ====
section
/-! SUPPORT. One lemma per shared operation that says once everything it can do. -/

namespace Sys2Proof

/-- `T > 0`, configured or not (00_scope.md R6). -/
theorem Config.delayNanos_pos (d : Option Nat) : 0 < Config.delayNanos d := by
  cases d <;> simp [Config.delayNanos, Config.defaultDelay]

/-- `leastCycles` is at least 1 and lasts at least `t` (00_scope.md R6). -/
theorem leastCycles_spec {t period : Nat} (ht : 0 < t) (hp : 0 < period) :
    1 ≤ leastCycles t period ∧ t ≤ leastCycles t period * period := by
  unfold leastCycles
  refine ⟨Nat.div_pos (by omega) hp, ?_⟩
  have := Nat.div_add_mod (t + period - 1) period
  have := Nat.mod_lt (t + period - 1) hp
  rw [Nat.mul_comm]
  omega

end Sys2Proof

namespace Sys2Proof.Machine

/-- The two spellings of the cursor's index. -/
theorem State.cursorIndex_eq (s : State) : s.cursorIndex = s.cursor.toNat := rfl

/-- The number of cells fits a position (00_scope.md R8). -/
theorem State.size_lt (s : State) : s.size < 256 := s.params.n.isLt

/-- A cursor set behind an existing cell does not wrap (41_text_formatter.md R79 (d)). -/
theorem State.setCursor_toNat {s : State} {k : Nat} (h : k < s.size) (t : State) : (t.setCursor (k + 1)).cursor.toNat = k + 1 := by
  have := s.size_lt
  simp only [State.setCursor_cursor, BitVec.toNat_ofNat]
  omega

/-- The point's target, by cases (41_text_formatter.md R73). -/
theorem State.pointTarget_eq (s : State) :
    s.pointTarget = if s.start.toNat < s.cursor.toNat then s.cursor.toNat - 1 else s.cursor.toNat := rfl

/-- The point's target is the cell before the cursor, or the cursor's own. -/
theorem State.pointTarget_cases (s : State) :
    (s.start.toNat < s.cursor.toNat ∧ s.pointTarget + 1 = s.cursor.toNat) ∨
    (s.cursor.toNat ≤ s.start.toNat ∧ s.pointTarget = s.cursor.toNat) := by
  rw [State.pointTarget_eq]
  split <;> omega

/-- The guard of every operation but INIT. -/
theorem State.whenInited_next {s t : State} {k : Host.Outcome State Fault Refusal} (h : s.whenInited k = .next t) :
    s.inited = true ∧ k = .next t := by
  unfold State.whenInited at h
  split at h
  · exact ⟨‹_›, h⟩
  · cases h

theorem State.whenInited_of {s : State} (h : s.inited = true) (k : Host.Outcome State Fault Refusal) : s.whenInited k = k := by
  simp [State.whenInited, h]

/-- A write inside the display answers a state with that one cell written. -/
theorem State.putCell_of_lt {s : State} {k : Nat} (h : k < s.size) (v : Byte) :
    s.putCell k v = .next ((s.storeCell k v).setCursor (k + 1)) := by
  simp [State.putCell, State.writeCell, h]

/-- What a character that is not the point does, all of it (41_text_formatter.md R71, R72, R74). -/
theorem State.putPattern_eq (s : State) {cls : CharClass} (hc : cls ≠ .point) (p : Pattern) :
    s.putPattern cls p =
      if s.size ≤ s.cursorIndex then .next s.raiseOverflow
      else .next ((s.storeCell s.cursorIndex (segmentByte p)).setCursor (s.cursorIndex + 1)) := by
  have ht : s.targetIndex cls = s.cursorIndex := by cases cls <;> simp_all [State.targetIndex]
  unfold State.putPattern State.overflows
  rw [ht]
  split
  · next h => rw [if_pos (by simpa using h)]
  · next h =>
    have h : ¬ s.size ≤ s.cursorIndex := by simpa using h
    rw [if_neg h, State.putCell_of_lt (by omega)]

/-- What the point does, all of it (41_text_formatter.md R73, R75). -/
theorem State.putPoint_eq (s : State) :
    s.putPoint =
      if s.size ≤ s.pointTarget then .next s.raiseOverflow
      else .next ((s.storeCell s.pointTarget (withPoint (s.cell s.pointTarget))).setCursor (s.pointTarget + 1)) := by
  have ho : s.overflows .point = decide (s.size ≤ s.pointTarget) := rfl
  unfold State.putPoint
  rw [ho]
  by_cases h : s.size ≤ s.pointTarget
  · simp [h]
  · simp only [h, decide_false, Bool.false_eq_true, if_false, State.readCell, show s.pointTarget < s.size by omega, if_true]
    exact State.putCell_of_lt (by omega) _

/-- Everything one character can do to a state that answers next (41_text_formatter.md R70): ignored, Overflow, or one cell written
and the cursor set behind it. -/
inductive CharacterStep (s : State) : State → Prop where
  | ignored (h : s.ovf = true) : CharacterStep s s
  | overflow (h : s.ovf = false) : CharacterStep s s.raiseOverflow
  | wrote (h : s.ovf = false) (k : Nat) (v : Byte) (hk : k < s.size) (hc : k = s.cursorIndex ∨ k = s.pointTarget) :
      CharacterStep s ((s.storeCell k v).setCursor (k + 1))

theorem State.character_next {s t : State} {k : Host.Outcome State Fault Refusal} (h : s.character k = .next t) :
    s.inited = true ∧ ((s.ovf = true ∧ t = s) ∨ (s.ovf = false ∧ k = .next t)) := by
  obtain ⟨hi, h⟩ := State.whenInited_next h
  refine ⟨hi, ?_⟩
  split at h
  · next ho => cases h; exact .inl ⟨ho, rfl⟩
  · next ho => exact .inr ⟨by simpa using ho, h⟩

theorem State.putPattern_step {s t : State} {cls : CharClass} (hc : cls ≠ .point) {p : Pattern}
    (h : s.character (s.putPattern cls p) = .next t) : s.inited = true ∧ CharacterStep s t := by
  obtain ⟨hi, ⟨ho, rfl⟩ | ⟨ho, h⟩⟩ := State.character_next h
  · exact ⟨hi, .ignored ho⟩
  · refine ⟨hi, ?_⟩
    rw [State.putPattern_eq s hc] at h
    split at h
    · cases h; exact .overflow ho
    · next hk => cases h; exact .wrote ho _ _ (by omega) (.inl rfl)

theorem State.putPoint_step {s t : State} (h : s.character s.putPoint = .next t) : s.inited = true ∧ CharacterStep s t := by
  obtain ⟨hi, ⟨ho, rfl⟩ | ⟨ho, h⟩⟩ := State.character_next h
  · exact ⟨hi, .ignored ho⟩
  · refine ⟨hi, ?_⟩
    rw [State.putPoint_eq] at h
    split at h
    · cases h; exact .overflow ho
    · next hk => cases h; exact .wrote ho _ _ (by omega) (.inr rfl)

/-- A code that is not the point's is a glyph or a blank. -/
theorem charClass_ne_point {c : Byte} (h : c ≠ pointCode) : charClass c ≠ .point := by
  unfold charClass
  rw [if_neg h]
  split <;> simp

/-- What PUTC of a code that is not the point's writes is what its class's row writes. -/
theorem encodeChar_of_glyph {c : Byte} (h : charClass c = .glyph) : encodeChar c = romRead (romAddress c) := by
  unfold charClass at h
  unfold encodeChar
  split at h
  · cases h
  · split at h
    · next hr => rw [if_pos hr]
    · cases h

theorem encodeChar_of_blank {c : Byte} (h : charClass c = .blank) : encodeChar c = blankPattern := by
  unfold charClass at h
  unfold encodeChar
  split at h
  · cases h
  · split at h
    · cases h
    · next hr => rw [if_neg hr]

end Sys2Proof.Machine
end

