-- ==== Sys2Proof/Laws/Exec.lean ====
section
/-! SUPPORT. What an instruction and a step can do: the inversion lemmas every invariant is derived from. -/

namespace Sys2Proof.Machine

/-- Everything an instruction that answers next can do. -/
inductive ExecStep (i : Instr) (s : State) : State → Prop where
  | init (a : Byte) (hi : i = .init a) (h : s.inited = false) : ExecStep i s { s.setupLines.refresh with inited := true }
  | clear (a : Byte) (hi : i = .clear a) (h : s.inited = true) : ExecStep i s s.clearCells
  | pbegin (p : Pos) (hi : i = .pbegin p) (h : s.inited = true) : ExecStep i s (s.loadPrint p).returnFromOverflow
  | character (hi : i.isCharacter = true) (h : s.inited = true) (t : State) (ht : CharacterStep s t) : ExecStep i s t
  | display (a : Byte) (hi : i = .display a) (h : s.inited = true) : ExecStep i s s.refresh
  | txn (bs : List Byte) (hi : i = .cmdDataAutoinc ∨ i = .cmdAddrFirst ∨ ∃ k, i = .cmdDisplayCtrl k)
      (hbs : CommandFrame s.size bs) (h : s.inited = true) : ExecStep i s (s.txn bs)

/-- The bytes of each transaction of a refresh cycle are a frame of the block's. -/
theorem State.commandFrame_payload (s : State) (x : Txn) : CommandFrame s.size (s.payload x) := by
  cases x with
  | mode => exact .inl rfl
  | data => exact .inr (.inl ⟨rfl, by simp [State.payload]⟩)
  | ctrl => exact .inr (.inr ⟨s.intensity, rfl⟩)

theorem exec_step {i : Instr} {s t : State} (h : exec i s = .next t) : ExecStep i s t := by
  have hglyph : ∀ c, s.putGlyph c = .next t → i.isCharacter = true → ExecStep i s t := fun c h hi =>
    have ⟨h1, h2⟩ := State.putPattern_step (by simp) h
    .character hi h1 t h2
  have hblank : s.putBlank = .next t → i.isCharacter = true → ExecStep i s t := fun h hi =>
    have ⟨h1, h2⟩ := State.putPattern_step (by simp) h
    .character hi h1 t h2
  have hpoint : s.character s.putPoint = .next t → i.isCharacter = true → ExecStep i s t := fun h hi =>
    have ⟨h1, h2⟩ := State.putPoint_step h
    .character hi h1 t h2
  cases i with
  | init a =>
    simp only [exec, execInit] at h
    split at h
    · cases h
    · next hn => cases h; exact .init a rfl (by simpa using hn)
  | clear a => obtain ⟨hi, h⟩ := State.whenInited_next h; cases h; exact .clear a rfl hi
  | pbegin p => obtain ⟨hi, h⟩ := State.whenInited_next h; cases h; exact .pbegin p rfl hi
  | display a => obtain ⟨hi, h⟩ := State.whenInited_next h; cases h; exact .display a rfl hi
  | reserved101 _ => cases h
  | reserved11x _ => cases h
  | cmd0x44 => cases h
  | cmdDataAutoinc =>
    obtain ⟨hi, h⟩ := State.whenInited_next h
    cases h
    exact .txn _ (.inl rfl) (s.commandFrame_payload .mode) hi
  | cmdAddrFirst =>
    obtain ⟨hi, h⟩ := State.whenInited_next h
    cases h
    exact .txn _ (.inr (.inl rfl)) (s.commandFrame_payload .data) hi
  | cmdDisplayCtrl k =>
    obtain ⟨hi, h⟩ := State.whenInited_next h
    cases h
    exact .txn _ (.inr (.inr ⟨k, rfl⟩)) (.inr (.inr ⟨k, rfl⟩)) hi
  | putc c =>
    simp only [exec, execPutc] at h
    split at h
    · exact hpoint h rfl
    · next hc =>
      obtain ⟨hi, hs⟩ := State.putPattern_step (charClass_ne_point hc) h
      exact .character rfl hi t hs
  | point2E => exact hpoint h rfl
  | blank00to1F c => exact hblank h rfl
  | blank7F => exact hblank h rfl
  | blank80toFF c => exact hblank h rfl
  | glyph20to27 c => exact hglyph _ h rfl
  | glyph28to2B c => exact hglyph _ h rfl
  | glyph2Cto2D c => exact hglyph _ h rfl
  | glyph2F => exact hglyph _ h rfl
  | glyph30to3F c => exact hglyph _ h rfl
  | glyph40to5F c => exact hglyph _ h rfl
  | glyph60to6F c => exact hglyph _ h rfl
  | glyph70to77 c => exact hglyph _ h rfl
  | glyph78to7B c => exact hglyph _ h rfl
  | glyph7Cto7D c => exact hglyph _ h rfl
  | glyph7E => exact hglyph _ h rfl

/-- Everything a step that answers next can do. -/
theorem step_cases {s t : State} (h : step s = .next t) :
    (s.rst = true ∧ t = s.applyReset) ∨
    (s.rst = false ∧ s.busy = true ∧ t = s.clockEdge) ∨
    (s.rst = false ∧ s.busy = false ∧ s.pending = [] ∧ t = s) ∨
    (s.rst = false ∧ s.busy = false ∧ ∃ p rest i, s.pending = p :: rest ∧ decode p = .ok i ∧
      ExecStep i { s with pending := rest } t) := by
  unfold step at h
  split at h
  · next hr => cases h; exact .inl ⟨hr, rfl⟩
  · next hr =>
    have hr : s.rst = false := by simpa using hr
    split at h
    · next hb => cases h; exact .inr (.inl ⟨hr, hb, rfl⟩)
    · next hb =>
      have hb : s.busy = false := by simpa using hb
      unfold State.accept at h
      split at h
      · next hp => cases h; exact .inr (.inr (.inl ⟨hr, hb, hp, rfl⟩))
      · next p rest hp =>
        split at h
        · next i hd => exact .inr (.inr (.inr ⟨hr, hb, p, rest, i, hp, hd, exec_step h⟩))
        · cases h

/-- A character instruction processes the point, a blank or a glyph. -/
theorem isCharacter_cases {i : Instr} (h : i.isCharacter = true) :
    i.isPoint = true ∨ (i.isPoint = false ∧ i.isBlank = true) ∨ (i.isPoint = false ∧ ∃ c, i.glyphCode = some c) := by
  cases i with
  | putc c =>
    by_cases hp : c = pointCode
    · exact .inl (by simp [Instr.isPoint, hp])
    · have hp' : (Instr.putc c).isPoint = false := by simp [Instr.isPoint, hp]
      cases hc : charClass c with
      | point => exact absurd hc (charClass_ne_point hp)
      | blank => exact .inr (.inl ⟨hp', by simp [Instr.isBlank, hc]⟩)
      | glyph => exact .inr (.inr ⟨hp', c, by simp [Instr.glyphCode, hc]⟩)
  | _ => simp_all [Instr.isCharacter, Instr.isPoint, Instr.isBlank, Instr.glyphCode]

/-- What an instruction that processes a GLYPH of code `c` is, whichever row or PUTC word it came from. -/
theorem exec_of_glyphCode {i : Instr} {c : Byte} (h : i.glyphCode = some c) (s : State) :
    exec i s = s.character (s.putPattern .glyph (romRead (romAddress c))) := by
  cases i with
  | putc d =>
    simp only [Instr.glyphCode] at h
    split at h
    · next hd =>
      cases h
      have hne : c ≠ pointCode := by
        intro hc
        rw [hc] at hd
        cases hd
      simp only [exec, execPutc, if_neg hne, hd, encodeChar_of_glyph hd]
    · cases h
  | glyph2F => cases h; rfl
  | glyph7E => cases h; rfl
  | glyph20to27 _ => cases h; rfl
  | glyph28to2B _ => cases h; rfl
  | glyph2Cto2D _ => cases h; rfl
  | glyph30to3F _ => cases h; rfl
  | glyph40to5F _ => cases h; rfl
  | glyph60to6F _ => cases h; rfl
  | glyph70to77 _ => cases h; rfl
  | glyph78to7B _ => cases h; rfl
  | glyph7Cto7D _ => cases h; rfl
  | _ => cases h

/-- What an instruction that processes a BLANK is. -/
theorem exec_of_isBlank {i : Instr} (h : i.isBlank = true) (s : State) :
    exec i s = s.character (s.putPattern .blank blankPattern) := by
  cases i with
  | putc d =>
    have hd : charClass d = .blank := by simpa [Instr.isBlank] using h
    have hne : d ≠ pointCode := by
      intro hc
      rw [hc] at hd
      cases hd
    simp only [exec, execPutc, if_neg hne, hd, encodeChar_of_blank hd]
  | blank00to1F _ => rfl
  | blank7F => rfl
  | blank80toFF _ => rfl
  | _ => cases h

/-- What an instruction that processes the POINT is. -/
theorem exec_of_isPoint {i : Instr} (h : i.isPoint = true) (s : State) : exec i s = s.character s.putPoint := by
  cases i with
  | putc d =>
    have hd : d = pointCode := by simpa [Instr.isPoint] using h
    simp only [exec, execPutc, if_pos hd]
  | point2E => rfl
  | _ => cases h

end Sys2Proof.Machine
end

