-- ==== Sys2Proof/Laws/Clock.lean ====
section
/-! SUPPORT. The serializer's clock edge: what it leaves alone, and that a wait of `dly` edges is one advance. -/

namespace Sys2Proof.Machine

/-- Runs of the machine compose. -/
theorem run_add {M : Host.Core} (j k : Nat) (s t : M.State) (h : M.run j s = .next t) : M.run (j + k) s = M.run k t := by
  induction j generalizing s with
  | zero => cases h; rw [Nat.zero_add]
  | succ j ih =>
    rw [show j + 1 + k = (j + k) + 1 by omega]
    simp only [Host.Core.run] at h ⊢
    split at h
    · exact ih _ h
    · cases h
    · cases h

/-- A run of one step more. -/
theorem run_succ {M : Host.Core} (k : Nat) (s t : M.State) (h : M.step s = .next t) : M.run (k + 1) s = M.run k t := by
  simp only [Host.Core.run, h]

/-- A step in the middle of an operation is a clock edge (10_state.md R23). -/
theorem step_of_busy {s : State} (hr : s.rst = false) (hb : s.busy = true) : step s = .next s.clockEdge := by
  simp [step, hr, hb]

/-- The accepting edge of a short operation that answers next. -/
theorem State.acceptShort_next {i : Instr} {s t : State} (h : exec i s = .next t) :
    s.acceptShort i = .next { t with busy := true } := by
  simp [State.acceptShort, h]

/-- The edge that ends the busy period of a short operation. -/
theorem State.clockEdge_idle {s : State} (h : s.seq = none) : s.clockEdge = { s with busy := false } := by
  simp [State.clockEdge, h]

/-- The registers no clock edge writes. -/
structure ClockFrame (s t : State) : Prop where
  fb : t.fb = s.fb
  start : t.start = s.start
  cursor : t.cursor = s.cursor
  ovf : t.ovf = s.ovf
  intensity : t.intensity = s.intensity
  lineOe : t.lineOe = s.lineOe
  params : t.params = s.params
  pending : t.pending = s.pending
  rst : t.rst = s.rst

theorem State.leavePhase_frame (s : State) (p : SeqPos) : ClockFrame s (s.leavePhase p) := by
  unfold State.leavePhase
  split <;> constructor <;> rfl

theorem State.enterPhase_frame (s : State) (p : SeqPos) : ClockFrame s (s.enterPhase p) := by
  constructor <;> rfl

theorem ClockFrame.trans {s t u : State} (h : ClockFrame s t) (g : ClockFrame t u) : ClockFrame s u :=
  ⟨g.fb.trans h.fb, g.start.trans h.start, g.cursor.trans h.cursor, g.ovf.trans h.ovf, g.intensity.trans h.intensity,
    g.lineOe.trans h.lineOe, g.params.trans h.params, g.pending.trans h.pending, g.rst.trans h.rst⟩

theorem State.advance_frame (s : State) (p : SeqPos) : ClockFrame s (s.advance p) := by
  unfold State.advance
  split
  · exact (s.leavePhase_frame p).trans (State.enterPhase_frame _ _)
  · exact (s.leavePhase_frame p).trans (by constructor <;> rfl)

theorem State.clockEdge_frame (s : State) : ClockFrame s s.clockEdge := by
  unfold State.clockEdge
  split
  · constructor <;> rfl
  · split
    · constructor <;> rfl
    · exact s.advance_frame _

/-- `dly + 1` clock edges are the rest of a wait and one advance (70_reset_and_hazards.md R142). -/
theorem run_wait {s : State} {p : SeqPos} (hr : s.rst = false) (hb : s.busy = true) (hs : s.seq = some p) :
    Host.Core.run core (s.dly + 1) s = .next (State.advance { s with dly := 0 } p) := by
  generalize hd : s.dly = d
  induction d generalizing s with
  | zero =>
    have hz : { s with dly := 0 } = s := by cases s; simp_all
    have he : s.clockEdge = s.advance p := by simp [State.clockEdge, hs, hd]
    rw [hz, ← he]
    exact run_succ (M := core) 0 s s.clockEdge (step_of_busy hr hb)
  | succ d ih =>
    have he : s.clockEdge = { s with dly := d } := by simp [State.clockEdge, hs, hd]
    refine (run_succ (M := core) (d + 1) s s.clockEdge (step_of_busy hr hb)).trans ?_
    rw [he]
    exact ih (s := { s with dly := d }) hr hb hs rfl

end Sys2Proof.Machine
end

