-- ==== Sys2Proof/Laws/PerInstr.lean ====
section
/-! SUPPORT. Statements for all instructions, one lemma per constructor. -/

namespace Sys2Proof.Laws.RowEncoding

/-- A well-formed instruction is encoded in its own row of spec/opcode_table.json: the row's mask and match hold of the word. -/
def Statement (i : Instr) : Prop := i.wellFormed = true → (encode i).inRowAt i.rowIndex = true

theorem init (arg : Byte) : Statement (.init arg) := fun _ => by simp only [encode, OpWord.inRowAt, Instr.rowIndex, hostRows, inRow]; revert arg; decide

theorem clear (arg : Byte) : Statement (.clear arg) := fun _ => by simp only [encode, OpWord.inRowAt, Instr.rowIndex, hostRows, inRow]; revert arg; decide

theorem pbegin (p : Pos) : Statement (.pbegin p) := fun _ => by simp only [encode, OpWord.inRowAt, Instr.rowIndex, hostRows, inRow]; revert p; decide

theorem putc (c : Byte) : Statement (.putc c) := fun _ => by simp only [encode, OpWord.inRowAt, Instr.rowIndex, hostRows, inRow]; revert c; decide

theorem display (arg : Byte) : Statement (.display arg) := fun _ => by simp only [encode, OpWord.inRowAt, Instr.rowIndex, hostRows, inRow]; revert arg; decide

theorem reserved101 (arg : Byte) : Statement (.reserved101 arg) := fun _ => by simp only [encode, OpWord.inRowAt, Instr.rowIndex, hostRows, inRow]; revert arg; decide

theorem reserved11x (arg : BitVec 9) : Statement (.reserved11x arg) := fun _ => by simp only [encode, OpWord.inRowAt, Instr.rowIndex, hostRows, inRow]; revert arg; decide

theorem blank00to1F (c : Byte) : Statement (.blank00to1F c) := fun h => h

theorem glyph20to27 (c : Byte) : Statement (.glyph20to27 c) := fun h => h

theorem glyph28to2B (c : Byte) : Statement (.glyph28to2B c) := fun h => h

theorem glyph2Cto2D (c : Byte) : Statement (.glyph2Cto2D c) := fun h => h

theorem point2E : Statement (.point2E) := fun _ => rfl

theorem glyph2F : Statement (.glyph2F) := fun _ => rfl

theorem glyph30to3F (c : Byte) : Statement (.glyph30to3F c) := fun h => h

theorem glyph40to5F (c : Byte) : Statement (.glyph40to5F c) := fun h => h

theorem glyph60to6F (c : Byte) : Statement (.glyph60to6F c) := fun h => h

theorem glyph70to77 (c : Byte) : Statement (.glyph70to77 c) := fun h => h

theorem glyph78to7B (c : Byte) : Statement (.glyph78to7B c) := fun h => h

theorem glyph7Cto7D (c : Byte) : Statement (.glyph7Cto7D c) := fun h => h

theorem glyph7E : Statement (.glyph7E) := fun _ => rfl

theorem blank7F : Statement (.blank7F) := fun _ => rfl

theorem blank80toFF (c : Byte) : Statement (.blank80toFF c) := fun h => h

theorem cmdDataAutoinc : Statement (.cmdDataAutoinc) := fun _ => rfl

theorem cmdAddrFirst : Statement (.cmdAddrFirst) := fun _ => rfl

theorem cmdDisplayCtrl (i : BitVec 3) : Statement (.cmdDisplayCtrl i) := fun _ => by simp only [encode, OpWord.inRowAt, Instr.rowIndex, wireRows, inRow]; revert i; decide

theorem cmd0x44 : Statement (.cmd0x44) := fun _ => rfl

end Sys2Proof.Laws.RowEncoding
end

