-- ==== Sys2Proof/Tests/Slice0.lean ====
section
/-! SUPPORT. The model's own tests: the WellFormed smoke test, decoding by words written out from 30_encoding.md, single steps from
95_test_vectors.md, and for every statement with hypotheses a concrete state and operands that meet them. -/

namespace Sys2Proof.Tests

open Sys2Proof.Machine

/-! ## Small states -/

/-- Parameters with N cells and intensity `i` (T = 100 microseconds at one microsecond a clock period). -/
def params (n : BitVec 8) (i : BitVec 3) : Params := { n := n, intensity := i, tNanos := 100000, periodNanos := 1000, tCycles := 100 }

/-- A block after setup, with these cells, start, cursor and `ovf` (the columns of 95_test_vectors.md, V13 to V29). -/
def block (n : BitVec 8) (cells : Memory) (start cursor : Pos) (ovf : Bool) : State :=
  { State.resetWith (params n 7#3) with
    fb := cells, start := start, cursor := cursor, ovf := ovf, inited := true, lineOe := true, clockO := .high, dataO := .high }

/-- The state an instruction answers. -/
def answer : Host.Outcome State Fault Refusal → Option State
  | .next t => some t
  | .fault _ => none
  | .refused _ => none

/-- The refusal an instruction answers. -/
def refusal : Host.Outcome State Fault Refusal → Option Refusal
  | .next _ => none
  | .fault _ => none
  | .refused r => some r

/-- Cells, cursor, `ret_o` and `ovf` after an instruction. -/
def after (i : Instr) (s : State) : Option (List Byte × Pos × Pos × Bool) :=
  (answer (exec i s)).map fun t => (t.cells, t.cursor, t.ret, t.ovf)

/-! ## WellFormed refuses an ill-formed term of each of its checks -/

theorem test_blank00to1F_illFormed : (Instr.blank00to1F 0x20#8).wellFormed = false := by decide
theorem test_glyph20to27_illFormed : (Instr.glyph20to27 0x28#8).wellFormed = false := by decide
theorem test_glyph28to2B_illFormed : (Instr.glyph28to2B 0x2C#8).wellFormed = false := by decide
theorem test_glyph2Cto2D_illFormed : (Instr.glyph2Cto2D 0x2E#8).wellFormed = false := by decide
theorem test_glyph30to3F_illFormed : (Instr.glyph30to3F 0x40#8).wellFormed = false := by decide
theorem test_glyph40to5F_illFormed : (Instr.glyph40to5F 0x60#8).wellFormed = false := by decide
theorem test_glyph60to6F_illFormed : (Instr.glyph60to6F 0x70#8).wellFormed = false := by decide
theorem test_glyph70to77_illFormed : (Instr.glyph70to77 0x78#8).wellFormed = false := by decide
theorem test_glyph78to7B_illFormed : (Instr.glyph78to7B 0x7C#8).wellFormed = false := by decide
theorem test_glyph7Cto7D_illFormed : (Instr.glyph7Cto7D 0x7E#8).wellFormed = false := by decide
theorem test_blank80toFF_illFormed : (Instr.blank80toFF 0x7F#8).wellFormed = false := by decide

/-! ## Decoding, one word per row, written from 30_encoding.md R44, R48, R53 to R55 -/

theorem test_decode_init : decode (.host 0b000_10100101#11) = .ok (.init 0xA5#8) := by decide
theorem test_decode_clear : decode (.host 0b001_11111111#11) = .ok (.clear 0xFF#8) := by decide
theorem test_decode_pbegin : decode (.host 0b010_11001000#11) = .ok (.pbegin 200#8) := by decide
theorem test_decode_putc : decode (.host 0b011_00110000#11) = .ok (.putc 0x30#8) := by decide
theorem test_decode_display : decode (.host 0b100_00000001#11) = .ok (.display 1#8) := by decide
theorem test_decode_reserved101 : decode (.host 0b101_00000000#11) = .ok (.reserved101 0#8) := by decide
theorem test_decode_reserved110 : decode (.host 0b110_00000011#11) = .ok (.reserved11x 0b0_00000011#9) := by decide
theorem test_decode_reserved111 : decode (.host 0b111_00000000#11) = .ok (.reserved11x 0b1_00000000#9) := by decide
theorem test_decode_blank00to1F : decode (.char 0b000_00111#8) = .ok (.blank00to1F 0x07#8) := by decide
theorem test_decode_glyph20to27 : decode (.char 0b00100_000#8) = .ok (.glyph20to27 0x20#8) := by decide
theorem test_decode_glyph28to2B : decode (.char 0b001010_11#8) = .ok (.glyph28to2B 0x2B#8) := by decide
theorem test_decode_glyph2Cto2D : decode (.char 0b0010110_1#8) = .ok (.glyph2Cto2D 0x2D#8) := by decide
theorem test_decode_point2E : decode (.char 0b00101110#8) = .ok (.point2E) := by decide
theorem test_decode_glyph2F : decode (.char 0b00101111#8) = .ok (.glyph2F) := by decide
theorem test_decode_glyph30to3F : decode (.char 0b0011_0001#8) = .ok (.glyph30to3F 0x31#8) := by decide
theorem test_decode_glyph40to5F : decode (.char 0b010_00001#8) = .ok (.glyph40to5F 0x41#8) := by decide
theorem test_decode_glyph60to6F : decode (.char 0b0110_0001#8) = .ok (.glyph60to6F 0x61#8) := by decide
theorem test_decode_glyph70to77 : decode (.char 0b01110_111#8) = .ok (.glyph70to77 0x77#8) := by decide
theorem test_decode_glyph78to7B : decode (.char 0b011110_10#8) = .ok (.glyph78to7B 0x7A#8) := by decide
theorem test_decode_glyph7Cto7D : decode (.char 0b0111110_1#8) = .ok (.glyph7Cto7D 0x7D#8) := by decide
theorem test_decode_glyph7E : decode (.char 0b01111110#8) = .ok (.glyph7E) := by decide
theorem test_decode_blank7F : decode (.char 0b01111111#8) = .ok (.blank7F) := by decide
theorem test_decode_blank80toFF : decode (.char 0b1_0110000#8) = .ok (.blank80toFF 0xB0#8) := by decide
theorem test_decode_cmdDataAutoinc : decode (.wire 0b01000000#8) = .ok (.cmdDataAutoinc) := by decide
theorem test_decode_cmdAddrFirst : decode (.wire 0b11000000#8) = .ok (.cmdAddrFirst) := by decide
theorem test_decode_cmdDisplayCtrl : decode (.wire 0b10001_101#8) = .ok (.cmdDisplayCtrl 5#3) := by decide
theorem test_decode_cmd0x44 : decode (.wire 0b01000100#8) = .ok (.cmd0x44) := by decide
theorem test_decode_noWireCommand : decode (.wire 0x80#8) = .error (.notAWireCommand 0x80#8) := by decide
theorem test_tableWord_putc : decodeTableWord 16 0x32E = some (.putc 0x2E#8) := by decide
theorem test_tableWord_bitsAbove : decodeBits 16 0x800 = .error (.bitsAboveWord 0x800) := by decide
theorem test_tableWord_width : decodeBits 32 0 = .error (.noSuchWidth 32) := by decide

/-! ## Encoder (95_test_vectors.md V2, V6, V9, V11) -/

theorem test_V2_encode : encodeChar 0x1F#8 = 0#7 := by decide
theorem test_V6_encode : encodeChar 0x30#8 = 0b0111111#7 := by decide
theorem test_V9_encode : encodeChar 0x7F#8 = 0#7 := by decide
theorem test_V11_encode : encodeChar 0xB0#8 = 0#7 := by decide

/-! ## Text Formatter (95_test_vectors.md V13 to V29) -/

theorem test_V13_putc : after (.putc 0x30#8) (block 4#8 [] 0#8 0#8 false) = some ([0x3F#8, 0#8, 0#8, 0#8], 1#8, 1#8, false) := by decide
theorem test_V14_glyph : after (.glyph30to3F 0x30#8) (block 4#8 [(0, 0x3F#8), (1, 0x3F#8), (2, 0x3F#8)] 0#8 3#8 false)
    = some ([0x3F#8, 0x3F#8, 0x3F#8, 0x3F#8], 4#8, 4#8, false) := by decide
theorem test_V15_overflow : after (.putc 0x30#8) (block 2#8 [(0, 0x3F#8), (1, 0x3F#8)] 0#8 2#8 false)
    = some ([0x3F#8, 0x3F#8], 2#8, 2#8, true) := by decide
theorem test_V16_ignored : after .point2E (block 2#8 [(0, 0x3F#8), (1, 0x3F#8)] 0#8 2#8 true)
    = some ([0x3F#8, 0x3F#8], 2#8, 2#8, true) := by decide
theorem test_V17_lastPoint : after .point2E (block 2#8 [(0, 0x3F#8), (1, 0x3F#8)] 0#8 2#8 false)
    = some ([0x3F#8, 0xBF#8], 2#8, 2#8, false) := by decide
theorem test_V18_secondPoint : after (.putc 0x2E#8) (block 2#8 [(0, 0xBF#8)] 0#8 1#8 false)
    = some ([0xBF#8, 0#8], 1#8, 1#8, false) := by decide
theorem test_V19_glyphClearsPoint : after (.putc 0x30#8) (block 2#8 [(0, 0x3F#8), (1, 0x80#8)] 0#8 1#8 false)
    = some ([0x3F#8, 0x3F#8], 2#8, 2#8, false) := by decide
theorem test_V20_pointAtStart : after (.putc 0x2E#8) (block 4#8 [(0, 0x3F#8), (1, 0x3F#8), (2, 0x3F#8)] 2#8 2#8 false)
    = some ([0x3F#8, 0x3F#8, 0xBF#8, 0#8], 3#8, 1#8, false) := by decide
theorem test_V21_pointBehindEnd : after .point2E (block 1#8 [] 1#8 1#8 false) = some ([0#8], 1#8, 0#8, true) := by decide
theorem test_V22_farStart : after (.putc 0x30#8) (block 1#8 [] 255#8 255#8 false) = some ([0#8], 255#8, 0#8, true) := by decide
theorem test_V23_blank : after (.blank00to1F 0x07#8) (block 3#8 [(0, 0x3F#8), (2, 0x3F#8)] 0#8 2#8 false)
    = some ([0x3F#8, 0#8, 0#8], 3#8, 3#8, false) := by decide
theorem test_blank7F : after .blank7F (block 1#8 [(0, 0xBF#8)] 0#8 0#8 false) = some ([0#8], 1#8, 1#8, false) := by decide
theorem test_blank80toFF : after (.blank80toFF 0xB0#8) (block 1#8 [(0, 0xBF#8)] 0#8 0#8 false)
    = some ([0#8], 1#8, 1#8, false) := by decide
theorem test_space : after (.glyph20to27 0x20#8) (block 1#8 [(0, 0xBF#8)] 0#8 0#8 false) = some ([0#8], 1#8, 1#8, false) := by decide
theorem test_V26_clear : after (.clear 0xFF#8) (block 2#8 [(0, 0x3F#8), (1, 0xBF#8)] 1#8 2#8 true)
    = some ([0#8, 0#8], 2#8, 1#8, true) := by decide
theorem test_V27_pbegin : after (.pbegin 2#8) (block 2#8 [(0, 0x3F#8)] 0#8 2#8 true) = some ([0x3F#8, 0#8], 2#8, 0#8, false) := by decide

/-! ## Wire (95_test_vectors.md V30, V36, V42, V50, V39) -/

theorem test_V36_sendByte : sendByteEvents 0xC0#8 = cellEvents false ++ cellEvents false ++ cellEvents false ++ cellEvents false
    ++ cellEvents false ++ cellEvents false ++ cellEvents true ++ cellEvents true ++ [.w] := by decide
theorem test_V30_txn : (txnEvents [0x40#8]).length = 73 ∧ waits (txnEvents [0x40#8]) = 37 ∧
    clockRises .high (txnEvents [0x40#8]) = 9 ∧ dataChangesWhileHigh .low .low (txnEvents [0x40#8]) = [.high] := by decide
theorem test_V42_display : (answer (exec (.display 0#8) { block 1#8 [(0, 0x80#8)] 0#8 0#8 false with intensity := 0#3 })).map State.frames
    = some [[0x40#8], [0xC0#8, 0x80#8], [0x88#8]] := by decide
theorem test_V50_counts : (answer (exec (.display 0#8) (block 1#8 [] 0#8 0#8 false))).map
    (fun t => (t.trace.length, waits t.trace, lineWrites t.trace)) = some (284, 144, 140) := by decide +kernel
theorem test_V40_init : (answer (exec (.init 0#8) (State.resetWith (params 4#8 7#3)))).map (fun t => (t.frames, t.inited, t.lineOe))
    = some ([[0x40#8], [0xC0#8, 0#8, 0#8, 0#8, 0#8], [0x8F#8]], true, true) := by decide
theorem test_cmdDataAutoinc : (answer (exec .cmdDataAutoinc (block 1#8 [] 0#8 0#8 false))).map State.frames
    = some [[0x40#8]] := by decide
theorem test_cmdAddrFirst : (answer (exec .cmdAddrFirst (block 2#8 [(1, 0x3F#8)] 0#8 0#8 false))).map State.frames
    = some [[0xC0#8, 0#8, 0x3F#8]] := by decide
theorem test_V39b_cmdDisplayCtrl : (answer (exec (.cmdDisplayCtrl 3#3) (block 1#8 [] 0#8 0#8 false))).map State.frames
    = some [[0x8B#8]] := by decide

/-- One clock edge inside a wait counts `dly` down; the edge that ends phase B3 of bit 7 shifts `sh` (70_reset_and_hazards.md R142,
42_protocol_driver.md R86). -/
def sending (ph : Phase) (bit : BitVec 3) (dly : Nat) : State :=
  { block 1#8 [(0, 0x3F#8)] 0#8 0#8 false with
    busy := true, seq := some { txn := .data, byte := 1, phase := ph }, sh := 0xA5#8, bitcnt := bit, dly := dly }

theorem test_clock_wait : (sending .b3 7#3 5).clockEdge.dly = 4 := by decide
theorem test_clock_shift : ((sending .b3 7#3 0).clockEdge.sh, (sending .b3 7#3 0).clockEdge.seqTuple)
    = (0x52#8, some (.data, 1, 0#3, .settle)) := by decide
theorem test_clock_nextBit : ((sending .b3 2#3 0).clockEdge.seqTuple, (sending .b3 2#3 0).clockEdge.sh)
    = (some (.data, 1, 3#3, .b0), 0x52#8) := by decide
theorem test_default_delay : ({ n := 4#8, intensity := 0#3, periodNanos := 1000, tCycles := 100 } : Params).tNanos = 100000 ∧
    Config.delayNanos none = 100000 := by decide
theorem test_clock_data : (sending .b0 0#3 0).clockEdge.trace = [.d1, .w] := by decide
theorem test_clock_finish : ({ sending .stop2 0#3 0 with seq := some { txn := .ctrl, byte := 0, phase := .stop2 } }).clockEdge.busy
    = false := by decide

/-- The one busy period of PUTC (70_reset_and_hazards.md R140, R143). -/
theorem test_short_busy : (answer ((block 1#8 [] 0#8 0#8 false).acceptShort (.putc 0x30#8))).map
    (fun t => (t.cmdReady, t.clockEdge.cmdReady, t.clockEdge.cells)) = some (false, true, [0x3F#8]) := by decide

/-! ## Refusals (95_test_vectors.md V60 to V64) -/

theorem test_V60_display : refusal (exec (.display 0#8) (State.resetWith (params 4#8 7#3))) = some .notInitialised := by decide
theorem test_V61_pbegin : refusal (exec (.pbegin 0#8) (State.resetWith (params 4#8 7#3))) = some .notInitialised := by decide
theorem test_V62_init : refusal (exec (.init 0#8) (block 4#8 [] 0#8 0#8 false)) = some .alreadyInitialised := by decide
theorem test_V63_reserved : refusal (exec (.reserved11x 0b1_00000000#9) (block 4#8 [] 0#8 0#8 false)) = some (.reservedOpcode 7#3) := by decide
theorem test_V63_reserved101 : refusal (exec (.reserved101 0#8) (block 4#8 [] 0#8 0#8 false)) = some (.reservedOpcode 5#3) := by decide
theorem test_cmd0x44 : refusal (exec .cmd0x44 (block 4#8 [] 0#8 0#8 false)) = some (.noWireRole 0x44#8) := by decide

/-! ## The step -/

theorem test_step_runs : (answer (step { block 1#8 [] 0#8 0#8 false with pending := [.host 0x330#11, .host 0x400#11] })).map
    (fun t => (t.cells, t.pending)) = some ([0x3F#8], [.host 0x400#11]) := by decide
theorem test_step_placed : (answer (step ((block 1#8 [] 0#8 0#8 false).withFetchWord 16 0x330))).map (fun t => t.cells)
    = some [0x3F#8] := by decide
theorem test_step_reset : (answer (step { sending .b3 7#3 5 with rst := true })).map (fun t => (t.busy, t.inited, t.trace, t.fb))
    = some (false, false, [], []) := by decide

/-! ## Witnesses: the hypotheses of each statement, met together -/

/-- A print operation over two cells that has written its first. -/
def mid : State := block 2#8 [(0, 0x3F#8)] 0#8 1#8 false

/-- One that is at the end of the display. -/
def full : State := block 2#8 [(0, 0x3F#8), (1, 0x3F#8)] 0#8 2#8 false

/-- One that began behind the end. -/
def behind : State := block 2#8 [(0, 0x3F#8)] 2#8 2#8 false

/-- One at the last of its cells that has not advanced. -/
def last : State := block 2#8 [(0, 0x3F#8)] 1#8 1#8 false

/-- One that has overflowed. -/
def stopped : State := block 2#8 [(0, 0x3F#8), (1, 0x3F#8)] 0#8 2#8 true

/-- A block before setup. -/
def unset : State := State.resetWith (params 2#8 7#3)

theorem witness_DecodeOfEncode : (Instr.glyph30to3F 0x3F#8).wellFormed = true ∧ (Instr.blank80toFF 0xFF#8).wellFormed = true := by decide
theorem witness_EncodeOfDecode : decode (.wire 0x8F#8) = .ok (.cmdDisplayCtrl 7#3) := by decide
theorem witness_EncodeIsRangeCheckedLookup : (0x20 ≤ (0x20#8).toNat ∧ (0x20#8).toNat ≤ 0x7E) ∧ (0x20 ≤ (0x7E#8).toNat ∧ (0x7E#8).toNat ≤ 0x7E)
    ∧ ((0x1F#8).toNat < 0x20) ∧ (0x7E < (0x7F#8).toNat) := by decide
theorem witness_ResetLeavesTheStatedValues : unset = State.resetWith (params 2#8 7#3) := rfl
theorem witness_ResetInputWins : ({ sending .b3 7#3 5 with rst := true }).rst = true := by decide
theorem witness_StepRunsTheDecodedInstruction : ∃ (s : State) (p : OpWord) (rest : List OpWord) (i : Instr), s.rst = false ∧ s.busy = false ∧ s.pending = p :: rest ∧
    decode p = .ok i := ⟨{ mid with pending := [.host 0x330#11] }, .host 0x330#11, [], .putc 0x30#8, by decide⟩
theorem witness_PlacedWordRunsNext : decodeTableWord 16 0x7FF = some (.reserved11x 0x1FF#9) ∧
    decodeTableWord 8 0x30 = some (.glyph30to3F 0x30#8) ∧ decodeTableWord 8 0xC0 = some .cmdAddrFirst := by decide
theorem witness_BlockWaits : mid.rst = false ∧ mid.busy = false ∧ mid.pending = [] := by decide
theorem witness_BusyBlock : (sending .b3 7#3 5).rst = false ∧ (sending .b3 7#3 5).busy = true ∧
    (sending .b3 7#3 5).clockEdge.busy = true := by decide
theorem witness_inited : mid.inited = true := by decide
theorem witness_GlyphWritesItsPattern : (Instr.putc 0x30#8).glyphCode = some 0x30#8 ∧ Instr.glyph7E.glyphCode = some 0x7E#8 ∧ FbOk mid ∧
    mid.inited = true ∧ mid.ovf = false ∧ mid.cursor.toNat < mid.size := by decide
theorem witness_BlankWritesTheBlankPattern : (Instr.putc 0x1F#8).isBlank = true ∧ Instr.blank7F.isBlank = true ∧ FbOk mid ∧
    mid.inited = true ∧ mid.ovf = false ∧ mid.cursor.toNat < mid.size := by decide
theorem witness_PointSetsThePointBit_merging : Instr.point2E.isPoint = true ∧ FbOk full ∧ full.inited = true ∧ full.ovf = false ∧
    1 = (if full.start.toNat < full.cursor.toNat then full.cursor.toNat - 1 else full.cursor.toNat) ∧ 1 < full.size := by decide
theorem witness_PointSetsThePointBit_leading : (Instr.putc 0x2E#8).isPoint = true ∧ FbOk last ∧ last.inited = true ∧ last.ovf = false ∧
    1 = (if last.start.toNat < last.cursor.toNat then last.cursor.toNat - 1 else last.cursor.toNat) ∧ 1 < last.size := by decide
theorem witness_OverflowSetsTheFlagOnly_character : (Instr.putc 0x30#8).isCharacter = true ∧ full.inited = true ∧ full.ovf = false ∧
    (Instr.putc 0x30#8).isPoint = false ∧ full.size ≤ full.cursor.toNat := by decide
theorem witness_OverflowSetsTheFlagOnly_point : Instr.point2E.isCharacter = true ∧ behind.inited = true ∧ behind.ovf = false ∧
    Instr.point2E.isPoint = true ∧
    behind.size ≤ (if behind.start.toNat < behind.cursor.toNat then behind.cursor.toNat - 1 else behind.cursor.toNat) := by decide
theorem witness_PointOverflowsOnlyAtAStart : Instr.point2E.isPoint = true ∧ PrintOk behind ∧ behind.inited = true ∧ behind.ovf = false ∧
    (behind.cursor = behind.start ∧ behind.size ≤ behind.start.toNat) := by decide
theorem witness_PointDoesNotOverflow : Instr.point2E.isPoint = true ∧ PrintOk last ∧ last.inited = true ∧ last.ovf = false ∧
    ¬ (last.cursor = last.start ∧ last.size ≤ last.start.toNat) := by decide
theorem witness_CharactersAreIgnored : (Instr.putc 0x2E#8).isCharacter = true ∧ stopped.inited = true ∧ stopped.ovf = true := by decide
theorem witness_CursorAdvance_ignored : ∃ t, (Instr.putc 0x30#8).isCharacter = true ∧ exec (.putc 0x30#8) stopped = .next t ∧
    stopped.ovf = true := ⟨_, rfl, rfl, rfl⟩
theorem witness_CursorAdvance_overflow : ∃ t, (Instr.putc 0x30#8).isCharacter = true ∧ exec (.putc 0x30#8) full = .next t ∧
    t.ovf = true := ⟨_, rfl, rfl, rfl⟩
theorem witness_CursorAdvance_merge : ∃ t, Instr.point2E.isCharacter = true ∧ exec .point2E full = .next t ∧ t.ovf = false ∧
    Instr.point2E.isPoint = true ∧ full.start.toNat < full.cursor.toNat := ⟨_, rfl, rfl, rfl, rfl, by decide⟩
theorem witness_CursorAdvance_advance : ∃ t, Instr.point2E.isCharacter = true ∧ exec .point2E last = .next t ∧ t.ovf = false ∧
    ¬ last.start.toNat < last.cursor.toNat := ⟨_, rfl, rfl, rfl, by decide⟩
theorem witness_SecondPoint : ∃ t, Instr.point2E.isPoint = true ∧ FbOk last ∧ PrintOk last ∧ exec .point2E last = .next t :=
  ⟨_, rfl, by decide, by decide, rfl⟩
theorem witness_ReturnValue : PrintOk mid ∧ PrintOk behind ∧ behind.size ≤ behind.start.toNat := by decide
theorem witness_PrintOfFittingText : mid.inited = true ∧ FbOk mid ∧ pointCode ∉ [0x30#8, 0x20#8] ∧
    (0#8).toNat + [0x30#8, 0x20#8].length ≤ mid.size := by decide
theorem witness_PrintOfOverlongText : mid.inited = true ∧ FbOk mid ∧ pointCode ∉ [0x30#8, 0x20#8] ∧ (1#8).toNat ≤ mid.size ∧
    mid.size < (1#8).toNat + [0x30#8, 0x20#8].length := by decide
theorem witness_PrintOfOverlongText_atTheEnd : (2#8).toNat ≤ mid.size ∧ mid.size < (2#8).toNat + [0x30#8].length := by decide
theorem witness_PointSharesTheCell : mid.inited = true ∧ FbOk mid ∧ 0x31#8 ≠ pointCode ∧ 0x32#8 ≠ pointCode ∧ (0#8).toNat + 2 ≤ mid.size := by
  decide
theorem witness_notInited : unset.inited = false := by decide
theorem witness_WireCommands_mode : mid.inited = true ∧ Instr.cmdDataAutoinc = .cmdDataAutoinc ∧ [0x40#8] = [0x40#8] := by decide
theorem witness_WireCommands_data : ∃ bs, mid.inited = true ∧ Instr.cmdAddrFirst = .cmdAddrFirst ∧
    bs = 0xC0#8 :: (List.range mid.size).map mid.cell := ⟨_, rfl, rfl, rfl⟩
theorem witness_WireCommands_ctrl : ∃ bs, mid.inited = true ∧ ∃ k : BitVec 3, Instr.cmdDisplayCtrl 7#3 = .cmdDisplayCtrl k ∧
    bs = [0x88#8 + k.zeroExtend 8] := ⟨_, rfl, 7#3, rfl, rfl⟩
theorem witness_ByteTransfer_lastShift : 8 ≤ 8 ∧ 0 ≤ 8 := by decide
theorem witness_EventCounts : ∃ t, exec (.display 0#8) mid = .next t := ⟨_, rfl⟩
theorem witness_DataChanges : [0x40#8] ≠ ([] : List Byte) := by decide
theorem witness_InitFirstTransaction : ∃ t, exec (.init 0#8) unset = .next t := ⟨_, rfl⟩
theorem witness_EventsDetermineTheFrames : framesEvents [[0x40#8], [0xC0#8, 0x3F#8]] = framesEvents ([[0x40#8]] ++ [[0xC0#8, 0x3F#8]]) := rfl
theorem witness_ClockedDisplay : mid.params.Valid ∧ mid.rst = false ∧ mid.inited = true ∧ IdleOk mid := by decide
theorem witness_ClockedInit : unset.params.Valid ∧ unset.rst = false ∧ unset.inited = false ∧ IdleOk unset := by decide
theorem witness_ShortOperations : mid.rst = false ∧ mid.inited = true ∧ IdleOk mid ∧ (∃ a, Instr.clear 0#8 = .clear a) ∧
    (∃ p, Instr.pbegin 255#8 = .pbegin p) ∧ ∃ c, Instr.putc 0x2E#8 = .putc c :=
  ⟨rfl, rfl, by decide, ⟨_, rfl⟩, ⟨_, rfl⟩, _, rfl⟩
theorem witness_FramebufferInvariant : ∃ t, FbOk mid ∧ step { mid with pending := [.host 0x330#11] } = .next t := ⟨_, by decide, rfl⟩
theorem witness_PrintInvariant : ∃ t, PrintOk mid ∧ step { mid with pending := [.host 0x330#11] } = .next t := ⟨_, by decide, rfl⟩
theorem witness_WireInvariant : ∃ t, WireOk unset ∧ WireOk { unset with pending := [.host 0#11] } ∧
    step { unset with pending := [.host 0#11] } = .next t := ⟨_, by decide, by decide, rfl⟩
theorem witness_LinesInvariant : ∃ t, LinesOk { sending .b0 0#3 0 with trace := [.l0, .c1, .d1] } ∧
    step { sending .b0 0#3 0 with trace := [.l0, .c1, .d1] } = .next t := ⟨_, by decide, rfl⟩
theorem witness_CommandFrames : ∃ t, FramesOk { mid with frames := [[0xC0#8, 0#8, 0#8]] } ∧
    step { mid with frames := [[0xC0#8, 0#8, 0#8]], pending := [.host 0x400#11] } = .next t :=
  ⟨_, fun _ h => .inr (.inl (by simp_all [addressByte, State.size, mid, block, State.resetWith, params])), rfl⟩
theorem witness_CommandFrames_kinds : CommandFrame 1 [0x40#8] ∧ CommandFrame 1 [0xC0#8, 0x44#8] ∧ CommandFrame 1 [0x8F#8] :=
  ⟨.inl rfl, .inr (.inl ⟨rfl, rfl⟩), .inr (.inr ⟨7#3, by decide⟩)⟩
theorem witness_IntensityAndParameters : ∃ t, IntensityOk { mid with pending := [.host 0x400#11] } ∧
    step { mid with pending := [.host 0x400#11] } = .next t := ⟨_, rfl, rfl⟩
theorem witness_TraceOnlyGrows : ∃ t, mid.rst = false ∧ step mid = .next t := ⟨_, rfl, rfl⟩
theorem witness_OverflowFlag_set : ∃ t, exec (.putc 0x30#8) full = .next t ∧ full.ovf = false ∧ t.ovf = true := ⟨_, rfl, rfl, rfl⟩
theorem witness_OverflowFlag_cleared : ∃ t, exec (.pbegin 0#8) stopped = .next t ∧ stopped.ovf = true ∧ t.ovf = false := ⟨_, rfl, rfl, rfl⟩
theorem witness_OtherOperations : (Instr.display 0#8).isCharacter = false ∧ ∀ p, Instr.display 0#8 ≠ .pbegin p := ⟨rfl, nofun⟩
theorem witness_Formatter : ∃ t u v, ((Instr.putc 0x30#8).isCharacter = true ∧ exec (.putc 0x30#8) mid = .next t) ∧
    exec (.clear 0#8) mid = .next u ∧ exec (.pbegin 1#8) mid = .next v := ⟨_, _, _, ⟨rfl, rfl⟩, rfl, rfl⟩
theorem witness_OperationsBeforeInit : unset.inited = false ∧ (∀ a, Instr.putc 0x30#8 ≠ .init a) ∧ (Instr.putc 0x30#8).hasNoMeaning = false :=
  ⟨rfl, nofun, rfl⟩
theorem witness_ReservedOpcodes : 5 ≤ ((0x500#11 : CmdWord).extractLsb' 8 3).toNat ∧ 5 ≤ ((0x7FF#11 : CmdWord).extractLsb' 8 3).toNat ∧
    unset.rst = false ∧ unset.busy = false ∧ ({ unset with pending := [.host 0x500#11] }).pending = .host 0x500#11 :: [] := by decide
theorem witness_WireByteWithoutRole : unset.rst = false ∧ unset.busy = false ∧
    ({ unset with pending := [.wire 0x44#8] }).pending = .wire 0x44#8 :: [] := by decide

theorem witness_WireByteWithoutRole_frames : ∃ t, exec (.display 0#8) mid = .next t := ⟨_, rfl⟩

end Sys2Proof.Tests
end

namespace Sys2Proof.Machine

/-! ### The state after reset, field by field (10_state.md R27) -/

@[simp] theorem State.resetWith_fb (p : Params) : (State.resetWith p).fb = [] := rfl
@[simp] theorem State.resetWith_start (p : Params) : (State.resetWith p).start = 0#8 := rfl
@[simp] theorem State.resetWith_cursor (p : Params) : (State.resetWith p).cursor = 0#8 := rfl
@[simp] theorem State.resetWith_ovf (p : Params) : (State.resetWith p).ovf = false := rfl
@[simp] theorem State.resetWith_intensity (p : Params) : (State.resetWith p).intensity = p.intensity := rfl
@[simp] theorem State.resetWith_lineOe (p : Params) : (State.resetWith p).lineOe = false := rfl
@[simp] theorem State.resetWith_inited (p : Params) : (State.resetWith p).inited = false := rfl
@[simp] theorem State.resetWith_seq (p : Params) : (State.resetWith p).seq = none := rfl
@[simp] theorem State.resetWith_busy (p : Params) : (State.resetWith p).busy = false := rfl
@[simp] theorem State.resetWith_trace (p : Params) : (State.resetWith p).trace = [] := rfl

/-! ### The cells and the outputs after reset -/

/-- No cell is listed after reset, so every cell reads as the blank byte. -/
@[simp] theorem State.cell_resetWith (p : Params) (k : Nat) : (State.resetWith p).cell k = 0x00#8 := by
  rw [State.cell, State.resetWith_fb, Memory.read_nil, blankByte]

@[simp] theorem State.cmdReady_resetWith (p : Params) : (State.resetWith p).cmdReady = true := by
  rw [State.cmdReady, State.resetWith_busy, Bool.not_false]

/-- `cursor` and `start` agree after reset, so their distance `ret_o` is 0. -/
@[simp] theorem State.ret_resetWith (p : Params) : (State.resetWith p).ret = 0#8 := by
  rw [State.ret, State.resetWith_cursor, State.resetWith_start, BitVec.sub_self]

/-- Settles O8: each value of the table of R27 is a fact of its own about `State.resetWith`, for any parameters. -/
theorem resetLeavesTheStatedValues : Obligations.ResetLeavesTheStatedValues := by
  refine ⟨rfl, ?_⟩
  rintro p _ rfl
  exact ⟨State.cell_resetWith p, State.resetWith_start p, State.resetWith_cursor p, State.resetWith_ovf p,
    State.resetWith_intensity p, State.resetWith_inited p, State.resetWith_lineOe p, State.resetWith_seq p,
    State.resetWith_busy p, State.cmdReady_resetWith p, State.resetWith_trace p, State.ret_resetWith p⟩

end Sys2Proof.Machine

namespace Sys2Proof.Machine

/-! ### Accepting a presented unit (30_encoding.md R45) -/

/-- A block that is ready runs the instruction of the first presented unit, with that unit consumed. -/
theorem step_of_decode {s : State} {p : OpWord} {rest : List OpWord} {i : Instr} (hr : s.rst = false) (hb : s.busy = false)
    (hp : s.pending = p :: rest) (hd : decode p = .ok i) : step s = exec i { s with pending := rest } := by
  simp only [step, hr, hb, State.accept, hp, hd, Bool.false_eq_true, if_false]

/-! ### The reserved opcodes (30_encoding.md R46) -/

theorem exec_reserved101 (arg : Byte) (s : State) : exec (.reserved101 arg) s = .refused (.reservedOpcode 0b101#3) := rfl

theorem exec_reserved11x (arg : BitVec 9) (s : State) :
    exec (.reserved11x arg) s = .refused (.reservedOpcode (0b11#2 ++ arg.extractLsb' 8 1)) := rfl

theorem decodeHost_of_op_five {w : CmdWord} (h : CmdWord.op w = 5#3) : decodeHost w = .reserved101 (CmdWord.arg w) := by
  simp [decodeHost, h]

theorem decodeHost_of_six_le_op {w : CmdWord} (h : 6 ≤ (CmdWord.op w).toNat) :
    decodeHost w = .reserved11x (w.extractLsb' 0 9) := by
  have hne : ∀ k : BitVec 3, k.toNat < 6 → CmdWord.op w ≠ k := by
    rintro k hk rfl
    omega
  simp [decodeHost, hne]

/-- The operand of a RESERVED_11x word keeps the lowest bit of the opcode; behind `11` it gives the opcode back. -/
theorem append_extract_eq_op {w : CmdWord} (h : 6 ≤ (CmdWord.op w).toNat) :
    0b11#2 ++ (w.extractLsb' 0 9).extractLsb' 8 1 = CmdWord.op w := by
  have hlow : (w.extractLsb' 0 9).extractLsb' 8 1 = (CmdWord.op w).extractLsb' 0 1 := by
    ext i hi
    obtain rfl : i = 0 := by omega
    simp [CmdWord.op]
  have hop : ∀ o : BitVec 3, 6 ≤ o.toNat → 0b11#2 ++ o.extractLsb' 0 1 = o := by decide
  rw [hlow, hop _ h]

/-- Whichever of the two rows a reserved word decodes to, the refusal names the word's own opcode. -/
theorem exec_decodeHost_reserved {w : CmdWord} (h : 5 ≤ (CmdWord.op w).toNat) (s : State) :
    exec (decodeHost w) s = .refused (.reservedOpcode (CmdWord.op w)) := by
  obtain h6 | h5 : 6 ≤ (CmdWord.op w).toNat ∨ (CmdWord.op w).toNat = 5 := by omega
  · rw [decodeHost_of_six_le_op h6, exec_reserved11x, append_extract_eq_op h6]
  · have hop : CmdWord.op w = 5#3 := BitVec.eq_of_toNat_eq h5
    rw [decodeHost_of_op_five hop, exec_reserved101, hop]

/-- Settles O58: both rows are refused by definition, and an accepted reserved word is run as one of them. -/
theorem reservedOpcodesAreRefused : Obligations.ReservedOpcodesAreRefused := by
  refine ⟨exec_reserved101, exec_reserved11x, ?_⟩
  intro w s rest hw hr hb hp
  rw [step_of_decode hr hb hp rfl]
  exact exec_decodeHost_reserved hw _

/-! ### The frames an instruction sends (30_encoding.md R52 to R55, R57) -/

theorem controlByte_ne_0x44 : ∀ i : BitVec 3, controlByte i ≠ 0x44#8 := by decide

/-- None of the three forms of a frame begins with the byte that has no role (30_encoding.md R55). -/
theorem CommandFrame.head?_ne_0x44 {n : Nat} {f : List Byte} (h : CommandFrame n f) : f.head? ≠ some 0x44#8 := by
  obtain rfl | ⟨hhead, _⟩ | ⟨i, rfl⟩ := h
  · decide
  · rw [hhead]; decide
  · simpa using controlByte_ne_0x44 i

theorem CharacterStep.frames_eq {s t : State} (h : CharacterStep s t) : t.frames = s.frames := by
  cases h with
  | ignored _ => rfl
  | overflow _ => exact State.raiseOverflow_frames s
  | wrote _ k v _ _ => rw [State.setCursor_frames, State.storeCell_frames]

/-- A refresh cycle appends three frames, each of the block's. -/
theorem State.refresh_appends_commandFrames (s : State) :
    ∃ fs, s.refresh.frames = s.frames ++ fs ∧ ∀ f ∈ fs, CommandFrame s.size f := by
  refine ⟨[.mode, .data, .ctrl].map s.payload, by simp [State.refresh_frames], ?_⟩
  intro f hf
  obtain ⟨x, _, rfl⟩ := List.mem_map.1 hf
  exact s.commandFrame_payload x

/-- What an instruction appends to the frame view is frames of the block's, or nothing. -/
theorem ExecStep.appends_commandFrames {i : Instr} {s t : State} (h : ExecStep i s t) :
    ∃ fs, t.frames = s.frames ++ fs ∧ ∀ f ∈ fs, CommandFrame s.size f := by
  have hnone (he : t.frames = s.frames) : ∃ fs, t.frames = s.frames ++ fs ∧ ∀ f ∈ fs, CommandFrame s.size f :=
    ⟨[], by simp [he]⟩
  cases h with
  | init _ _ _ => exact s.setupLines.refresh_appends_commandFrames
  | clear _ _ _ => exact hnone (State.clearCells_frames s)
  | pbegin p _ _ => exact hnone (by rw [State.returnFromOverflow_frames, State.loadPrint_frames])
  | character _ _ _ ht => exact hnone ht.frames_eq
  | display _ _ _ => exact s.refresh_appends_commandFrames
  | txn bs _ hbs _ => exact ⟨[bs], State.txn_frames s bs, by simpa using hbs⟩

/-! ### The wire byte without a role (30_encoding.md R55) -/

theorem exec_cmd0x44 (s : State) : exec .cmd0x44 s = .refused (.noWireRole 0x44#8) := rfl

theorem decode_wire_0x44 : decode (.wire 0x44#8) = .ok .cmd0x44 := by decide

/-- Settles O59: the row is refused by definition, the accepted unit is that row, and every frame sent is one of the block's. -/
theorem wireByteWithoutRoleIsRefused : Obligations.WireByteWithoutRoleIsRefused := by
  refine ⟨exec_cmd0x44, ?_, ?_⟩
  · intro s rest hr hb hp
    rw [step_of_decode hr hb hp decode_wire_0x44, exec_cmd0x44]
  · intro i s t h
    obtain ⟨fs, happ, hfs⟩ := (exec_step h).appends_commandFrames
    exact ⟨fs, happ, fun f hf => (hfs f hf).head?_ne_0x44⟩

end Sys2Proof.Machine

namespace Sys2Proof.Machine

/-! ### The lookup of ENCODE and the pinned ROM words (40_segment_encoder.md R62, R63) -/

theorem inRomRange_iff (c : Byte) : inRomRange c = true ↔ 0x20 ≤ c.toNat ∧ c.toNat ≤ 0x7E := by
  simp [inRomRange]

/-- The range test is on the code, not on its class: the point's code 0x2E is looked up like its neighbours. -/
theorem encodeChar_of_mem_range {c : Byte} (h : 0x20 ≤ c.toNat ∧ c.toNat ≤ 0x7E) : encodeChar c = romRead (c.toNat - 0x20) := by
  rw [encodeChar, if_pos ((inRomRange_iff c).2 h), romAddress]

theorem encodeChar_of_not_mem_range {c : Byte} (h : c.toNat < 0x20 ∨ 0x7E < c.toNat) : encodeChar c = 0#7 := by
  have hr : ¬ inRomRange c = true := by
    rw [inRomRange_iff]
    omega
  rw [encodeChar, if_neg hr, blankPattern]

@[simp] theorem romRead_space : romRead 0x00 = 0b0000000#7 := rfl

@[simp] theorem romRead_digitZero : romRead 0x10 = 0b0111111#7 := rfl

theorem encodeChar_space : encodeChar 0x20#8 = 0b0000000#7 :=
  (encodeChar_of_mem_range (by decide)).trans romRead_space

theorem encodeChar_digitZero : encodeChar 0x30#8 = 0b0111111#7 :=
  (encodeChar_of_mem_range (by decide)).trans romRead_digitZero

/-- Settles O6: the two branches of the range test, with the address bounded by the range itself. -/
theorem encodeIsRangeCheckedLookup : Obligations.EncodeIsRangeCheckedLookup := by
  intro c
  refine ⟨fun h => ⟨encodeChar_of_mem_range h, ?_⟩, encodeChar_of_not_mem_range⟩
  omega

/-- Settles O7: the pinned words are read through the lookup, and every code outside the range is blank. -/
theorem pinnedRomWords : Obligations.PinnedRomWords := by
  refine ⟨romRead_space, romRead_digitZero, encodeChar_space, encodeChar_digitZero, ?_, fun _ => encodeChar_of_not_mem_range⟩
  rw [encodeChar_digitZero]
  decide

end Sys2Proof.Machine

namespace Sys2Proof.Machine

/-! ### CLEAR and PBEGIN after setup (41_text_formatter.md R68, R69) -/

theorem exec_clear_of_inited {s : State} (h : s.inited = true) (arg : Byte) : exec (.clear arg) s = .next s.clearCells :=
  State.whenInited_of h _

theorem exec_pbegin_of_inited {s : State} (h : s.inited = true) (p : Pos) :
    exec (.pbegin p) s = .next (s.loadPrint p).returnFromOverflow :=
  State.whenInited_of h _

/-- A print operation begins with nothing printed: `cursor` and `start` are loaded with one value (10_state.md R15). -/
@[simp] theorem State.ret_loadPrint (s : State) (p : Pos) : (s.loadPrint p).ret = 0#8 := by
  rw [State.ret, State.loadPrint_cursor, State.loadPrint_start, BitVec.sub_self]

@[simp] theorem State.ret_returnFromOverflow (s : State) : s.returnFromOverflow.ret = s.ret := rfl

/-- Settles O15: CLEAR is `State.clearCells`, after which no cell is listed; the frame is that operation's own definition. -/
theorem clearZeroesEveryCell : Obligations.ClearZeroesEveryCell := by
  intro a s h
  exact ⟨s.clearCells, exec_clear_of_inited h a, s.cell_clearCells, rfl⟩

/-- Settles O16: PBEGIN loads both registers and then returns from Overflow, whatever `p` is; neither operation looks at `N`. -/
theorem pbeginStartsPrintOperation : Obligations.PbeginStartsPrintOperation := by
  intro p s h
  have hret : (s.loadPrint p).returnFromOverflow.ret = 0#8 := by
    rw [State.ret_returnFromOverflow, State.ret_loadPrint]
  exact ⟨_, exec_pbegin_of_inited h p, State.loadPrint_start s p, State.loadPrint_cursor s p,
    State.returnFromOverflow_ovf _, hret, rfl⟩

end Sys2Proof.Machine

namespace Sys2Proof.Machine

/-! ### The bits of a byte transfer (42_protocol_driver.md R86) -/

/-- The shift register after `i` cells. -/
theorem iterate_shifted (i : Nat) (b : Byte) : shifted^[i] b = b >>> i := by
  induction i with
  | zero => simp
  | succ i ih => rw [Function.iterate_succ_apply', ih, shifted, BitVec.shiftRight_add]

/-- Bit `i` of the shift register after a shift is bit `i + 1` before it. -/
theorem getLsbD_shifted (sh : Byte) (i : Nat) : (shifted sh).getLsbD i = sh.getLsbD (i + 1) := by
  rw [shifted, BitVec.getLsbD_ushiftRight, Nat.add_comm]

/-- The cells that the shift register drives are those of its bits in order, bit 0 first. -/
theorem shiftOut_eq_flatMap (k : Nat) (sh : Byte) :
    shiftOut k sh = (List.range k).flatMap fun i => cellEvents (sh.getLsbD i) := by
  induction k generalizing sh with
  | zero => rfl
  | succ k ih => simp only [shiftOut, ih, getLsbD_shifted, dataBit, List.range_succ_eq_map, List.flatMap_cons, List.flatMap_map]

/-- A bit cell leaves DATA at its bit. -/
theorem data_cellEvents (l : Level) (x : Bool) : (cellEvents x).foldl dataAfter l = if x then .high else .low := by
  cases x <;> rfl

/-- A byte transfer leaves DATA at bit 7, the last bit sent; the settle delay writes no line. -/
theorem data_sendByteEvents (l : Level) (b : Byte) :
    (sendByteEvents b).foldl dataAfter l = if b.getLsbD 7 then .high else .low := by
  have hlast : sendByteEvents b =
      (List.range 7).flatMap (fun i => cellEvents (b.getLsbD i)) ++ cellEvents (b.getLsbD 7) ++ [.w] := by
    rw [sendByteEvents, shiftOut_eq_flatMap, List.range_succ, List.flatMap_append, List.flatMap_singleton]
  rw [hlast, List.foldl_append, List.foldl_append, data_cellEvents]
  rfl

/-! ### Counting the events of a transaction (42_protocol_driver.md R97) -/

/-- Whatever is counted, a cell holds the same number of it for either bit, and `k` cells hold `k` times as many. -/
theorem countP_shiftOut {p : WireEvent → Bool} {n : Nat} (hp : ∀ x, (cellEvents x).countP p = n) (k : Nat) (sh : Byte) :
    (shiftOut k sh).countP p = n * k := by
  induction k generalizing sh with
  | zero => rfl
  | succ k ih => rw [shiftOut, List.countP_append, hp, ih, Nat.mul_succ, Nat.add_comm]

theorem countP_sendByteEvents {p : WireEvent → Bool} {n : Nat} (hp : ∀ x, (cellEvents x).countP p = n) (b : Byte) :
    (sendByteEvents b).countP p = n * 8 + [WireEvent.w].countP p := by
  rw [sendByteEvents, List.countP_append, countP_shiftOut hp]

/-- A transaction counts what START, STOP and its byte transfers count. -/
theorem countP_txnEvents {p : WireEvent → Bool} {m : Nat} (hp : ∀ b, (sendByteEvents b).countP p = m) (bs : List Byte) :
    (txnEvents bs).countP p = startEvents.countP p + stopEvents.countP p + m * bs.length := by
  have hbytes : (bytesEvents bs).countP p = m * bs.length := by
    induction bs with
    | nil => rfl
    | cons b bs ih => rw [bytesEvents, List.countP_append, hp, ih, List.length_cons, Nat.mul_succ, Nat.add_comm]
  rw [txnEvents, List.countP_append, List.countP_append, hbytes]
  omega

theorem waits_eq_countP (es : List WireEvent) : waits es = es.countP (· == .w) := rfl

@[simp] theorem waits_append (es fs : List WireEvent) : waits (es ++ fs) = waits es + waits fs :=
  List.count_append

@[simp] theorem lineWrites_append (es fs : List WireEvent) : lineWrites (es ++ fs) = lineWrites es + lineWrites fs :=
  List.countP_append

@[simp] theorem length_sendByteEvents (b : Byte) : (sendByteEvents b).length = 65 := by
  rw [← List.countP_true, countP_sendByteEvents (n := 8) (by decide)]
  rfl

@[simp] theorem waits_sendByteEvents (b : Byte) : waits (sendByteEvents b) = 33 := by
  rw [waits_eq_countP, countP_sendByteEvents (n := 4) (by decide)]
  rfl

@[simp] theorem lineWrites_sendByteEvents (b : Byte) : lineWrites (sendByteEvents b) = 32 :=
  countP_sendByteEvents (n := 4) (by decide) b

@[simp] theorem length_txnEvents (bs : List Byte) : (txnEvents bs).length = 8 + 65 * bs.length := by
  rw [← List.countP_true, countP_txnEvents (m := 65) (by simp [List.countP_true])]
  rfl

@[simp] theorem waits_txnEvents (bs : List Byte) : waits (txnEvents bs) = 4 + 33 * bs.length := by
  rw [waits_eq_countP, countP_txnEvents (p := (· == .w)) waits_sendByteEvents]
  rfl

@[simp] theorem lineWrites_txnEvents (bs : List Byte) : lineWrites (txnEvents bs) = 4 + 32 * bs.length :=
  countP_txnEvents lineWrites_sendByteEvents bs

/-- Settles O34: the cells are those of the bits in order, and the counts, levels and register values follow from the cell's. -/
theorem byteTransferSpellsItsBits : Obligations.ByteTransferSpellsItsBits := by
  refine ⟨fun _ => rfl, fun b => ⟨length_sendByteEvents b, waits_sendByteEvents b, lineWrites_sendByteEvents b,
    ?_, ?_, ?_, ?_⟩⟩
  · exact fun l => ⟨clock_sendByteEvents l b, data_sendByteEvents l b⟩
  · rw [sendByteEvents, shiftOut_eq_flatMap]
  · exact fun i _ => iterate_shifted i b
  · rw [iterate_shifted, BitVec.ushiftRight_eq_zero (le_refl 8)]

/-! ### DISPLAY (42_protocol_driver.md R91) -/

theorem exec_display_of_inited {s : State} (h : s.inited = true) (arg : Byte) : exec (.display arg) s = .next s.refresh :=
  State.whenInited_of h _

theorem exec_display_next {arg : Byte} {s t : State} (h : exec (.display arg) s = .next t) : t = s.refresh := by
  obtain ⟨_, h⟩ := State.whenInited_next h
  cases h
  rfl

theorem State.payload_mode (s : State) : s.payload .mode = [0x40#8] := rfl

theorem State.payload_data (s : State) : s.payload .data = 0xC0#8 :: (List.range s.size).map s.cell := rfl

theorem State.payload_ctrl (s : State) :
    s.payload .ctrl = [0x80#8 ||| (s.intensity.zeroExtend 8 &&& 0x7#8) ||| 0x08#8] := rfl

/-- Settles O30: DISPLAY is one refresh cycle, whose trace, frames and lines the laws of `State.refresh` give. -/
theorem displaySendsThreeTransactions : Obligations.DisplaySendsThreeTransactions := by
  intro a s h
  refine ⟨s.refresh, exec_display_of_inited h a, ?_, ?_, s.refresh_clockO, s.refresh_dataO, ?_⟩
  · rw [State.refresh_trace, State.payload_mode, State.payload_data, State.payload_ctrl]
  · rw [State.refresh_frames, State.payload_mode, State.payload_data, State.payload_ctrl]
    simp only [List.append_assoc, List.cons_append, List.nil_append]
  · rw [State.refresh_eq]

/-- Settles O35: the three transactions of DISPLAY carry `N + 3` bytes together. -/
theorem eventCounts : Obligations.EventCounts := by
  refine ⟨⟨rfl, rfl⟩, ⟨rfl, rfl⟩, fun b => ⟨length_sendByteEvents b, waits_sendByteEvents b⟩,
    fun bs => ⟨length_txnEvents bs, waits_txnEvents bs⟩, ?_⟩
  intro a s t h
  obtain rfl := exec_display_next h
  refine ⟨txnEvents (s.payload .mode) ++ txnEvents (s.payload .data) ++ txnEvents (s.payload .ctrl),
    by simp only [State.refresh_trace, List.append_assoc], ?_⟩
  simp only [List.length_append, waits_append, lineWrites_append, length_txnEvents, waits_txnEvents, lineWrites_txnEvents,
    State.payload, List.length_cons, List.length_nil, State.cells_length]
  omega

/-! ### The edges of a transaction (42_protocol_driver.md R95) -/

theorem clockRises_append (c : Level) (es fs : List WireEvent) :
    clockRises c (es ++ fs) = clockRises c es + clockRises (es.foldl clockAfter c) fs := by
  induction es generalizing c with
  | nil => simp [clockRises]
  | cons e es ih => simp only [List.cons_append, clockRises, ih, List.foldl_cons, Nat.add_assoc]

theorem dataChangesWhileHigh_append (c d : Level) (es fs : List WireEvent) :
    dataChangesWhileHigh c d (es ++ fs) =
      dataChangesWhileHigh c d es ++ dataChangesWhileHigh (es.foldl clockAfter c) (es.foldl dataAfter d) fs := by
  induction es generalizing c d with
  | nil => rfl
  | cons e es ih => simp only [List.cons_append, dataChangesWhileHigh, ih, List.foldl_cons, List.append_assoc]

theorem dataWritesWhileHigh_append (c : Level) (es fs : List WireEvent) :
    dataWritesWhileHigh c (es ++ fs) = dataWritesWhileHigh c es ++ dataWritesWhileHigh (es.foldl clockAfter c) fs := by
  induction es generalizing c with
  | nil => rfl
  | cons e es ih => simp only [List.cons_append, dataWritesWhileHigh, ih, List.foldl_cons, List.append_assoc]

/-- A bit cell raises CLOCK once, whatever the level it finds: it begins by driving CLOCK Low. -/
theorem clockRises_cellEvents (c : Level) (x : Bool) : clockRises c (cellEvents x) = 1 := by
  cases c <;> cases x <;> rfl

/-- A bit cell writes DATA only while CLOCK is Low. -/
theorem dataWritesWhileHigh_cellEvents (c : Level) (x : Bool) : dataWritesWhileHigh c (cellEvents x) = [] := by
  cases c <;> cases x <;> rfl

/-- Only a write of DATA changes DATA and leaves CLOCK High, so without such writes there are no such changes. -/
theorem dataChangesWhileHigh_of_no_writes {c : Level} {es : List WireEvent} (h : dataWritesWhileHigh c es = []) (d : Level) :
    dataChangesWhileHigh c d es = [] := by
  induction es generalizing c d with
  | nil => rfl
  | cons e es ih =>
    simp only [dataWritesWhileHigh, List.append_eq_nil_iff] at h
    obtain ⟨hhead, htail⟩ := h
    have hno : ¬ (c = .high ∧ clockAfter c e = .high ∧ dataAfter d e ≠ d) := by
      rintro ⟨rfl, hclock, hchange⟩
      cases e with
      | l0 | c0 => cases hclock
      | c1 | w => exact hchange rfl
      | d0 | d1 => simp at hhead
    rw [dataChangesWhileHigh, ih htail, if_neg hno, List.nil_append]

theorem clockRises_shiftOut (k : Nat) (c : Level) (sh : Byte) : clockRises c (shiftOut k sh) = k := by
  induction k generalizing c sh with
  | zero => rfl
  | succ k ih => rw [shiftOut, clockRises_append, clockRises_cellEvents, ih, Nat.add_comm]

theorem dataWritesWhileHigh_shiftOut (k : Nat) (c : Level) (sh : Byte) : dataWritesWhileHigh c (shiftOut k sh) = [] := by
  induction k generalizing c sh with
  | zero => rfl
  | succ k ih => rw [shiftOut, dataWritesWhileHigh_append, dataWritesWhileHigh_cellEvents, ih, List.append_nil]

/-- The byte transfers raise CLOCK eight times a byte. -/
theorem clockRises_bytesEvents (c : Level) (bs : List Byte) : clockRises c (bytesEvents bs) = 8 * bs.length := by
  have hwait (l : Level) : clockRises l [.w] = 0 := by cases l <;> rfl
  induction bs generalizing c with
  | nil => rfl
  | cons b bs ih =>
    rw [bytesEvents, clockRises_append, sendByteEvents, clockRises_append, clockRises_shiftOut, hwait, ih, List.length_cons]
    omega

/-- The byte transfers write DATA only while CLOCK is Low. -/
theorem dataWritesWhileHigh_bytesEvents (c : Level) (bs : List Byte) : dataWritesWhileHigh c (bytesEvents bs) = [] := by
  have hwait (l : Level) : dataWritesWhileHigh l [.w] = [] := by cases l <;> rfl
  induction bs generalizing c with
  | nil => rfl
  | cons b bs ih =>
    rw [bytesEvents, dataWritesWhileHigh_append, sendByteEvents, dataWritesWhileHigh_append, dataWritesWhileHigh_shiftOut,
      hwait, ih]
    rfl

/-- The byte transfers, if there are any, leave CLOCK Low. -/
theorem clock_bytesEvents {bs : List Byte} (h : bs ≠ []) (c : Level) : (bytesEvents bs).foldl clockAfter c = .low := by
  induction bs generalizing c with
  | nil => contradiction
  | cons b bs ih =>
    rw [bytesEvents, List.foldl_append, clock_sendByteEvents]
    cases bs with
    | nil => rfl
    | cons b' bs => exact ih (List.cons_ne_nil b' bs) .low

/-- STOP, which finds CLOCK Low after a byte transfer, raises it once (42_protocol_driver.md R85). -/
theorem clockRises_stopEvents : clockRises .low stopEvents = 1 := rfl

/-- Of its two writes of DATA only the rise comes while CLOCK is High. -/
theorem dataWritesWhileHigh_stopEvents : dataWritesWhileHigh .low stopEvents = [.high] := rfl

theorem dataChangesWhileHigh_stopEvents (d : Level) : dataChangesWhileHigh .low d stopEvents = [.high] := rfl

/-- From bus idle START has its edge, the fall of DATA (42_protocol_driver.md R84). -/
theorem dataChangesWhileHigh_startEvents : dataChangesWhileHigh .high .high startEvents = [.low] := rfl

theorem dataChangesWhileHigh_txnEvents {bs : List Byte} (h : bs ≠ []) :
    dataChangesWhileHigh .high .high (txnEvents bs) = [.low, .high] := by
  rw [txnEvents, dataChangesWhileHigh_append, dataChangesWhileHigh_append, List.foldl_append, clock_bytesEvents h,
    dataChangesWhileHigh_of_no_writes (dataWritesWhileHigh_bytesEvents _ bs), dataChangesWhileHigh_startEvents,
    dataChangesWhileHigh_stopEvents]
  rfl

theorem dataWritesWhileHigh_txnEvents {bs : List Byte} (h : bs ≠ []) :
    dataWritesWhileHigh .high (txnEvents bs) = [.low, .high] := by
  rw [txnEvents, dataWritesWhileHigh_append, dataWritesWhileHigh_append, List.foldl_append, clock_bytesEvents h,
    dataWritesWhileHigh_bytesEvents, dataWritesWhileHigh_stopEvents]
  rfl

theorem clockRises_txnEvents {bs : List Byte} (h : bs ≠ []) : clockRises .high (txnEvents bs) = 8 * bs.length + 1 := by
  rw [txnEvents, clockRises_append, clockRises_append, List.foldl_append, clock_bytesEvents h, clockRises_bytesEvents,
    clockRises_stopEvents, show clockRises .high startEvents = 0 from rfl, Nat.zero_add]

/-- Settles O36: each part of a transaction has its own edges, and the bytes between START and STOP leave CLOCK Low. -/
theorem dataChangesOnlyAtStartAndStop : Obligations.DataChangesOnlyAtStartAndStop := by
  refine ⟨?_, clockRises_cellEvents, clockRises_stopEvents, dataChangesWhileHigh_startEvents, dataChangesWhileHigh_stopEvents⟩
  exact fun bs h => ⟨dataChangesWhileHigh_txnEvents h, dataWritesWhileHigh_txnEvents h, clockRises_txnEvents h⟩

end Sys2Proof.Machine

namespace Sys2Proof.Machine

/-! ### INIT before setup (43_refresh_orchestration.md R103) -/

/-- Before setup INIT, whatever its argument, is the line setup, a refresh cycle and `inited`. -/
theorem exec_init_of_not_inited {s : State} (h : s.inited = false) (arg : Byte) :
    exec (.init arg) s = .next { s.setupLines.refresh with inited := true } := by
  simp [exec, execInit, h]

/-- The setup of the lines as one record update. -/
theorem State.setupLines_eq (s : State) :
    s.setupLines = { s with trace := s.trace ++ [.l0], clockO := .low, dataO := .low, lineOe := true } := rfl

/-- Settles O31: INIT is one refresh cycle behind the setup of the lines, which writes no cell, so the three payloads are those of
the state before it. -/
theorem initSetsUpTheLinesAndRefreshes : Obligations.InitSetsUpTheLinesAndRefreshes := by
  intro a s h
  refine ⟨{ s.setupLines.refresh with inited := true }, exec_init_of_not_inited h a, rfl, s.setupLines.refresh_lineOe,
    ?trace, ?frames, s.setupLines.refresh_clockO, s.setupLines.refresh_dataO, ?frame⟩
  case trace =>
    simp only [State.refresh_trace, State.payload_setupLines, State.setupLines_trace]
    rw [State.payload_mode, State.payload_data, State.payload_ctrl]
  case frames =>
    simp only [State.refresh_frames, State.payload_setupLines, State.setupLines_frames, List.append_assoc, List.cons_append,
      List.nil_append]
    rw [State.payload_mode, State.payload_data, State.payload_ctrl]
  case frame => rw [State.refresh_eq, State.setupLines_eq]

/-! ### TICK without a callback (43_refresh_orchestration.md R105) -/

@[simp] theorem State.size_clearCells (s : State) : s.clearCells.size = s.size := rfl

/-- With every cell blank the cells of the second transaction are `N` zero bytes. -/
theorem State.cells_clearCells (s : State) : s.clearCells.cells = List.replicate s.size 0x00#8 := by
  simp [State.cells, List.eq_replicate_iff, blankByte]

/-- The control byte is 0x88 plus the intensity: the field's three bits meet no bit of 0x88 (30_encoding.md R54). -/
theorem controlByte_eq_add : ∀ i : BitVec 3, controlByte i = 0x88#8 + i.zeroExtend 8 := by decide

/-- An instruction that answers next hands its state to the rest of the run. -/
theorem runInstrs_cons_of_next {i : Instr} {s t : State} (h : exec i s = .next t) (is : List Instr) :
    runInstrs (i :: is) s = runInstrs is t := by
  simp only [runInstrs, h]

/-- After setup a TICK with an empty body is CLEAR and then a refresh cycle. -/
theorem runInstrs_tickOps_nil {s : State} (h : s.inited = true) : runInstrs (tickOps []) s = .next s.clearCells.refresh := by
  have hclear := exec_clear_of_inited h 0#8
  have hdisplay : exec (.display 0#8) s.clearCells = .next s.clearCells.refresh :=
    exec_display_of_inited (by rw [State.clearCells_inited, h]) 0#8
  calc runInstrs (tickOps []) s
      = runInstrs [.display 0#8] s.clearCells := runInstrs_cons_of_next hclear _
    _ = runInstrs [] s.clearCells.refresh := runInstrs_cons_of_next hdisplay _
    _ = .next s.clearCells.refresh := rfl

/-- Settles O40: the refresh cycle sends the `N` zero bytes that CLEAR has left, and it writes no cell. -/
theorem tickWithoutCallbackBlanksTheDisplay : Obligations.TickWithoutCallbackBlanksTheDisplay := by
  intro s h
  refine ⟨s.clearCells.refresh, runInstrs_tickOps_nil h, ?cells, ?frames⟩
  case cells =>
    intro k
    rw [State.cell_refresh, State.cell_clearCells, blankByte]
  case frames =>
    simp only [State.refresh_frames, State.payload, State.cells_clearCells, controlByte_eq_add, State.clearCells_frames,
      State.clearCells_intensity, modeByte, addressByte, List.append_assoc, List.cons_append, List.nil_append]

end Sys2Proof.Machine

namespace Sys2Proof.Machine

/-! ### The reset input, field by field (70_reset_and_hazards.md R126) -/

/-- The reset input is looked at first: neither an operation in progress nor a presented one matters (R128). -/
theorem step_of_rst {s : State} (h : s.rst = true) : step s = .next s.applyReset := by
  rw [step, if_pos h]

@[simp] theorem State.applyReset_start (s : State) : s.applyReset.start = 0#8 := rfl
@[simp] theorem State.applyReset_cursor (s : State) : s.applyReset.cursor = 0#8 := rfl
@[simp] theorem State.applyReset_ovf (s : State) : s.applyReset.ovf = false := rfl
@[simp] theorem State.applyReset_intensity (s : State) : s.applyReset.intensity = s.params.intensity := rfl
@[simp] theorem State.applyReset_inited (s : State) : s.applyReset.inited = false := rfl
@[simp] theorem State.applyReset_lineOe (s : State) : s.applyReset.lineOe = false := rfl
@[simp] theorem State.applyReset_seq (s : State) : s.applyReset.seq = none := rfl
@[simp] theorem State.applyReset_busy (s : State) : s.applyReset.busy = false := rfl
@[simp] theorem State.applyReset_trace (s : State) : s.applyReset.trace = [] := rfl

/-- The parameters are fixed at construction, so the reset block has as many cells as before. -/
@[simp] theorem State.size_applyReset (s : State) : s.applyReset.size = s.size := rfl

/-- The presented operations, all that a reset keeps beside the parameters, are no part of a cell. -/
@[simp] theorem State.cell_applyReset (s : State) (k : Nat) : s.applyReset.cell k = 0x00#8 :=
  State.cell_resetWith s.params k

/-- Settles O10: with `rst = 1` the step is `State.applyReset`, each of whose values is a fact of its own about any state. -/
theorem resetInputWinsOverEverything : Obligations.ResetInputWinsOverEverything := by
  intro s h
  exact ⟨s.applyReset, step_of_rst h, s.cell_applyReset, s.applyReset_start, s.applyReset_cursor, s.applyReset_ovf,
    s.applyReset_intensity, s.applyReset_inited, s.applyReset_lineOe, s.applyReset_seq, s.applyReset_busy,
    s.applyReset_trace, s.size_applyReset⟩

end Sys2Proof.Machine

namespace Sys2Proof

/-! ### The fields of a host command word (30_encoding.md R44) -/

@[simp] theorem CmdWord.op_append (k : BitVec 3) (a : Byte) : CmdWord.op (k ++ a) = k :=
  BitVec.extractLsb'_append_eq_left

@[simp] theorem CmdWord.arg_append (k : BitVec 3) (a : Byte) : CmdWord.arg (k ++ a) = a :=
  BitVec.extractLsb'_append_eq_right

theorem CmdWord.op_append_arg (w : CmdWord) : CmdWord.op w ++ CmdWord.arg w = w :=
  (BitVec.extractLsb'_append_extractLsb'_eq_extractLsb' rfl).trans BitVec.extractLsb'_eq_self

/-- A word is its opcode in front of its argument. -/
theorem CmdWord.append_arg_of_op {w : CmdWord} {k : BitVec 3} (h : CmdWord.op w = k) : k ++ CmdWord.arg w = w := by
  rw [← h, CmdWord.op_append_arg]

/-- The two rows with the opcodes 110 and 111 are one row, whose operand is nine bits wide. -/
theorem CmdWord.six_le_op_append (arg : BitVec 9) : 6 ≤ (CmdWord.op (3#2 ++ arg)).toNat := by
  revert arg; decide

theorem CmdWord.append_operand_of_six_le_op {w : CmdWord} (h : 6 ≤ (CmdWord.op w).toNat) : 3#2 ++ w.extractLsb' 0 9 = w := by
  have htop : w.extractLsb' 9 2 = (CmdWord.op w).extractLsb' 1 2 := by
    ext i hi
    simp [CmdWord.op, show 1 + i < 3 by omega, ← Nat.add_assoc]
  have hop : ∀ o : BitVec 3, 6 ≤ o.toNat → o.extractLsb' 1 2 = 3#2 := by decide
  rw [← hop _ h, ← htop]
  exact (BitVec.extractLsb'_append_extractLsb'_eq_extractLsb' rfl).trans BitVec.extractLsb'_eq_self

end Sys2Proof

namespace Sys2Proof.Machine

/-! ### Decoding what was encoded, and encoding what was decoded (30_encoding.md sections 1, 2 and 4) -/

/-- A host row's word is decoded by its opcode. -/
theorem decodeHost_append (k : BitVec 3) (a : Byte) :
    decodeHost (k ++ a) =
      if k = 0#3 then .init a else if k = 1#3 then .clear a else if k = 2#3 then .pbegin a else if k = 3#3 then .putc a
      else if k = 4#3 then .display a else if k = 5#3 then .reserved101 a
      else .reserved11x ((k ++ a : CmdWord).extractLsb' 0 9) := by
  simp only [decodeHost, CmdWord.op_append, CmdWord.arg_append]

theorem decodeHost_reserved11x (arg : BitVec 9) : decodeHost (3#2 ++ arg) = .reserved11x arg := by
  rw [decodeHost_of_six_le_op (CmdWord.six_le_op_append arg)]
  exact congrArg Instr.reserved11x BitVec.extractLsb'_append_eq_right

/-- The code of a well-formed character row is decoded to that row: the masks of the rows before it do not match it. -/
theorem decodeChar_of_encode {i : Instr} {c : Byte} (he : encode i = .char c) (h : i.wellFormed = true) : decodeChar c = i := by
  cases i with
  | blank00to1F _ | glyph20to27 _ | glyph28to2B _ | glyph2Cto2D _ | glyph30to3F _ | glyph40to5F _ | glyph60to6F _
  | glyph70to77 _ | glyph78to7B _ | glyph7Cto7D _ | blank80toFF _ => cases he; revert c; decide
  | point2E | glyph2F | glyph7E | blank7F => cases he; decide
  | _ => cases he

theorem decodeWire_cmdDisplayCtrl : ∀ i : BitVec 3, decodeWire (0b10001#5 ++ i) = some (.cmdDisplayCtrl i) := by decide

/-- Settles O2: the host rows by their opcode, the character rows by their mask and match, the wire rows by their byte. -/
theorem decodeOfEncodeIsTheInstruction : Obligations.DecodeOfEncodeIsTheInstruction := by
  intro i h
  cases i with
  | init a | clear a | pbegin a | putc a | display a | reserved101 a => exact congrArg Except.ok (decodeHost_append _ a)
  | reserved11x a => exact congrArg Except.ok (decodeHost_reserved11x a)
  | cmdDisplayCtrl k => simp only [decode, encode, decodeWire_cmdDisplayCtrl]
  | cmdDataAutoinc | cmdAddrFirst | cmd0x44 => rfl
  | _ => exact congrArg Except.ok (decodeChar_of_encode rfl h)

theorem encode_decodeHost (w : CmdWord) : (decodeHost w).wellFormed = true ∧ encode (decodeHost w) = .host w := by
  have hrow {k : BitVec 3} (h : CmdWord.op w = k) : OpWord.host (k ++ CmdWord.arg w) = .host w :=
    congrArg OpWord.host (CmdWord.append_arg_of_op h)
  unfold decodeHost
  split_ifs with h0 h1 h2 h3 h4 h5
  · exact ⟨rfl, hrow h0⟩
  · exact ⟨rfl, hrow h1⟩
  · exact ⟨rfl, hrow h2⟩
  · exact ⟨rfl, hrow h3⟩
  · exact ⟨rfl, hrow h4⟩
  · exact ⟨rfl, hrow h5⟩
  · exact ⟨rfl, congrArg OpWord.host (CmdWord.append_operand_of_six_le_op (by bv_omega))⟩

theorem encode_decodeChar : ∀ c : Byte, (decodeChar c).wellFormed = true ∧ encode (decodeChar c) = .char c := by decide

theorem encode_of_decodeWire : ∀ b : Byte, ∀ i ∈ decodeWire b, i.wellFormed = true ∧ encode i = .wire b := by decide

theorem decode_wire_iff {b : Byte} {i : Instr} : decode (.wire b) = .ok i ↔ decodeWire b = some i := by
  cases hd : decodeWire b <;> simp [decode, hd]

/-- Settles O3: the three formats one by one; no unit of a format is left out. -/
theorem encodeOfDecodeIsTheUnit : Obligations.EncodeOfDecodeIsTheUnit := by
  intro p i h
  cases p with
  | host w => cases h; exact encode_decodeHost w
  | char c => cases h; exact encode_decodeChar c
  | wire b => exact encode_of_decodeWire b i (decode_wire_iff.1 h)

/-! ### The rows of the table (30_encoding.md R44, R48, R53) -/

/-- A well-formed instruction is encoded in its own row. -/
theorem encode_inRowAt (i : Instr) : i.wellFormed = true → (encode i).inRowAt i.rowIndex = true := by
  cases i with
  | init a => exact Laws.RowEncoding.init a
  | clear a => exact Laws.RowEncoding.clear a
  | pbegin p => exact Laws.RowEncoding.pbegin p
  | putc c => exact Laws.RowEncoding.putc c
  | display a => exact Laws.RowEncoding.display a
  | reserved101 a => exact Laws.RowEncoding.reserved101 a
  | reserved11x a => exact Laws.RowEncoding.reserved11x a
  | cmdDisplayCtrl k => exact Laws.RowEncoding.cmdDisplayCtrl k
  | point2E | glyph2F | glyph7E | blank7F | cmdDataAutoinc | cmdAddrFirst | cmd0x44 => exact fun _ => rfl
  | _ => exact id

/-- A unit that decodes lies in the row of the instruction it decodes to. -/
theorem inRowAt_of_decode {p : OpWord} {i : Instr} (h : decode p = .ok i) : p.inRowAt i.rowIndex = true := by
  obtain ⟨hwf, rfl⟩ := encodeOfDecodeIsTheUnit p i h
  exact encode_inRowAt i hwf

/-- The mask of a host row looks at the opcode only. -/
theorem inRow_hostRows {r : CmdWord × CmdWord} (hr : r ∈ hostRows) (w : CmdWord) :
    inRow r.1 r.2 w = inRow r.1 r.2 (CmdWord.op w ++ 0#8) := by
  have hmask : ∀ r ∈ hostRows, 0x700#11 &&& r.1 = r.1 := by simp [hostRows]
  have hop : w &&& 0x700#11 = CmdWord.op w ++ 0#8 := by
    calc w &&& 0x700#11 = (CmdWord.op w ++ CmdWord.arg w) &&& (7#3 ++ 0#8 : CmdWord) := by rw [CmdWord.op_append_arg]; rfl
      _ = (CmdWord.op w &&& 7#3) ++ (CmdWord.arg w &&& 0#8) := BitVec.and_append
      _ = CmdWord.op w ++ 0#8 := by rw [BitVec.and_zero, show 7#3 = BitVec.allOnes 3 from rfl, BitVec.and_allOnes]
  have hw : (CmdWord.op w ++ 0#8) &&& r.1 = w &&& r.1 := by rw [← hop, BitVec.and_assoc, hmask r hr]
  simp only [inRow, hw]

theorem rowsMatching_hostRows (w : CmdWord) : rowsMatching hostRows w = 1 := by
  have hop : ∀ o : BitVec 3, rowsMatching hostRows (o ++ 0#8) = 1 := by decide
  rw [← hop (CmdWord.op w), rowsMatching, rowsMatching, List.filter_congr fun r hr => inRow_hostRows hr w]

theorem rowsMatching_charRows : ∀ c : Byte, rowsMatching charRows c = 1 := by decide

theorem rowsMatching_wireRows : ∀ b : Byte, rowsMatching wireRows b = if (decodeWire b).isSome then 1 else 0 := by decide

/-- Settles O4: a host row is told by the opcode alone, the 256 codes and bytes of the other two formats are looked at one by
one. -/
theorem everyWordLiesInExactlyOneRow : Obligations.EveryWordLiesInExactlyOneRow := by
  refine ⟨fun w => ⟨rowsMatching_hostRows w, inRowAt_of_decode rfl⟩,
    fun c => ⟨rowsMatching_charRows c, inRowAt_of_decode rfl⟩, fun b => ?_⟩
  rw [rowsMatching_wireRows]
  simp only [decode_wire_iff, ← Option.isSome_iff_exists]
  split <;> simp_all

/-- Settles O1: the decoder is run on each of the twelve units. -/
theorem sampleWordsDecode : Obligations.SampleWordsDecode := by
  unfold Obligations.SampleWordsDecode
  decide

/-- Settles O5: each of the 256 codes is looked at. -/
theorem tableClassIsRangeClass : Obligations.TableClassIsRangeClass := by
  unfold Obligations.TableClassIsRangeClass
  decide

end Sys2Proof.Machine

namespace Sys2Proof.Machine

/-! ### Accepting, waiting and refusing (30_encoding.md R45, 70_reset_and_hazards.md R131, R145) -/

/-- Settles O11: the acceptance runs what the first presented unit decodes to. -/
theorem stepRunsTheDecodedInstruction : Obligations.StepRunsTheDecodedInstruction :=
  fun _ _ _ _ hr hb hp hd => step_of_decode hr hb hp hd

theorem decodeTableWord_some {nbits w : Nat} {i : Instr} (h : decodeTableWord nbits w = some i) :
    ∃ p, tableWord nbits w = .ok p ∧ decode p = .ok i := by
  cases ht : tableWord nbits w with
  | error e => simp [decodeTableWord, decodeBits, ht] at h
  | ok p =>
    cases hd : decode p with
    | error e => simp [decodeTableWord, decodeBits, ht, hd] at h
    | ok j => simpa [decodeTableWord, decodeBits, ht, hd] using h

/-- Settles O12: the placed unit is the first presented one, and the acceptance consumes it. -/
theorem placedWordRunsNext : Obligations.PlacedWordRunsNext := by
  intro s nbits w i h
  obtain ⟨p, ht, hd⟩ := decodeTableWord_some h
  have hplaced : s.withFetchWord nbits w = s.present p := by rw [State.withFetchWord, ht]
  rw [hplaced]
  exact step_of_decode (State.present_rst s p) (State.present_busy s p) (State.present_pending s p) hd

/-- Settles O13: with nothing presented there is nothing to accept. -/
theorem blockWaitsWithoutOperation : Obligations.BlockWaitsWithoutOperation := by
  intro s hr hb hp
  simp [step, hr, hb, State.accept, hp]

theorem State.whenInited_of_not {s : State} (h : s.inited = false) (k : Host.Outcome State Fault Refusal) :
    s.whenInited k = .refused .notInitialised := by
  simp [State.whenInited, h]

/-- Settles O56: the meaning of every instruction but INIT and the three refused rows stands behind the guard of setup. -/
theorem operationsBeforeInitAreRefused : Obligations.OperationsBeforeInitAreRefused := by
  intro i s h hinit hmeaning
  cases i with
  | init a => exact absurd rfl (hinit a)
  | reserved101 _ | reserved11x _ | cmd0x44 => cases hmeaning
  | _ => exact State.whenInited_of_not h _

/-- Settles O57: INIT looks at `inited` before anything else. -/
theorem secondInitIsRefused : Obligations.SecondInitIsRefused := by
  intro a s h
  simp [exec, execInit, h]

/-! ### No fault (60_exceptions.md R114) -/

theorem State.whenInited_ne_fault {s : State} {k : Host.Outcome State Fault Refusal} {f : Fault} (h : k ≠ .fault f) :
    s.whenInited k ≠ .fault f := by
  unfold State.whenInited
  split
  · exact h
  · nofun

theorem State.character_ne_fault {s : State} {k : Host.Outcome State Fault Refusal} {f : Fault} (h : k ≠ .fault f) :
    s.character k ≠ .fault f := by
  refine State.whenInited_ne_fault ?_
  split
  · nofun
  · exact h

theorem State.putPattern_ne_fault (s : State) {cls : CharClass} (hc : cls ≠ .point) (p : Pattern) (f : Fault) :
    s.putPattern cls p ≠ .fault f := by
  rw [State.putPattern_eq s hc]
  split <;> nofun

theorem State.putPoint_ne_fault (s : State) (f : Fault) : s.putPoint ≠ .fault f := by
  rw [State.putPoint_eq]
  split <;> nofun

theorem exec_character_ne_fault {i : Instr} (h : i.isCharacter = true) (s : State) (f : Fault) : exec i s ≠ .fault f := by
  obtain hp | ⟨_, hb⟩ | ⟨_, c, hg⟩ := isCharacter_cases h
  · rw [exec_of_isPoint hp]
    exact State.character_ne_fault (s.putPoint_ne_fault f)
  · rw [exec_of_isBlank hb]
    exact State.character_ne_fault (s.putPattern_ne_fault (by simp) _ f)
  · rw [exec_of_glyphCode hg]
    exact State.character_ne_fault (s.putPattern_ne_fault (by simp) _ f)

theorem exec_ne_fault (i : Instr) (s : State) (f : Fault) : exec i s ≠ .fault f := by
  cases i with
  | init a =>
    simp only [exec, execInit]
    split <;> nofun
  | clear _ | pbegin _ | display _ | cmdDataAutoinc | cmdAddrFirst | cmdDisplayCtrl _ => exact State.whenInited_ne_fault nofun
  | reserved101 _ | reserved11x _ | cmd0x44 => nofun
  | _ => exact exec_character_ne_fault rfl s f

/-- Settles O51: every cell access stands behind its bound test, and a step adds no access to that of its instruction. -/
theorem nothingEverFaults : Obligations.NothingEverFaults := by
  refine ⟨exec_ne_fault, fun s f => ?_⟩
  unfold step State.accept
  split
  · nofun
  · split
    · nofun
    · split
      · nofun
      · split
        · exact exec_ne_fault _ _ f
        · nofun

/-! ### The frames of an instruction and of a clock edge -/

/-- A character writes nothing but a cell, the cursor and `ovf`. -/
theorem CharacterStep.frame {s t : State} (h : CharacterStep s t) :
    t = { s with fb := t.fb, cursor := t.cursor, ovf := t.ovf } := by
  cases h <;> rfl

/-- The registers no instruction writes. -/
theorem ExecStep.intensity_params {i : Instr} {s t : State} (h : ExecStep i s t) :
    t.intensity = s.intensity ∧ t.params = s.params := by
  cases h with
  | init _ _ _ => exact ⟨s.setupLines.refresh_intensity, s.setupLines.refresh_params⟩
  | clear _ _ _ => exact ⟨s.clearCells_intensity, s.clearCells_params⟩
  | pbegin p _ _ => exact ⟨s.loadPrint_intensity p, s.loadPrint_params p⟩
  | txn bs _ _ _ => exact ⟨s.txn_intensity bs, s.txn_params bs⟩
  | display _ _ _ => exact ⟨s.refresh_intensity, s.refresh_params⟩
  | character _ _ _ ht =>
    rw [ht.frame]
    exact ⟨rfl, rfl⟩

/-- Settles O55: CLEAR and PBEGIN are record updates of these registers, a character is a `CharacterStep`. -/
theorem formatterDoesNotTouchTheWire : Obligations.FormatterDoesNotTouchTheWire := by
  intro i s t hi h
  cases exec_step h with
  | clear _ _ _ | pbegin _ _ _ => rfl
  | character _ _ _ ht => cases ht <;> rfl
  | init _ hi' _ | display _ hi' _ => subst hi'; simp [Instr.isCharacter] at hi
  | txn _ hi' _ _ =>
    obtain rfl | rfl | ⟨k, rfl⟩ := hi' <;> simp [Instr.isCharacter] at hi

/-- Settles O53: only a `CharacterStep` raises Overflow, and of the other meanings only PBEGIN's writes `ovf`. -/
theorem overflowFlagSetByCharactersClearedByPbegin : Obligations.OverflowFlagSetByCharactersClearedByPbegin := by
  intro i s t h
  have hkeep (he : t.ovf = s.ovf) :
      (s.ovf = false → t.ovf = true → i.isCharacter = true) ∧ (s.ovf = true → t.ovf = false → ∃ p, i = .pbegin p) := by
    simp_all
  cases exec_step h with
  | init _ _ _ => exact hkeep (s.setupLines.refresh_ovf.trans s.setupLines_ovf)
  | clear _ _ _ => exact hkeep s.clearCells_ovf
  | pbegin p hi _ => exact ⟨fun _ ht => by simp at ht, fun _ _ => ⟨p, hi⟩⟩
  | display _ _ _ => exact hkeep s.refresh_ovf
  | txn bs _ _ _ => exact hkeep (s.txn_ovf bs)
  | character hi _ _ ht =>
    refine ⟨fun _ _ => hi, fun hs hovf => ?_⟩
    cases ht with
    | ignored _ => simp_all
    | overflow ho | wrote ho _ _ _ _ => simp_all

/-- An outcome with `ovf` set to `b` in its next state, if it has one. -/
def outcomeWithOvf (b : Bool) : Host.Outcome State Fault Refusal → Host.Outcome State Fault Refusal
  | .next t => .next { t with ovf := b }
  | .fault f => .fault f
  | .refused r => .refused r

theorem State.whenInited_with_ovf (s : State) (b : Bool) {k k' : Host.Outcome State Fault Refusal} (h : k' = outcomeWithOvf b k) :
    ({ s with ovf := b } : State).whenInited k' = outcomeWithOvf b (s.whenInited k) := by
  simp only [State.whenInited, h]
  split <;> rfl

/-- What a refresh cycle sends is read from the cells, the number of cells and the intensity. -/
theorem State.payload_congr {s t : State} (hfb : s.fb = t.fb) (hp : s.params = t.params) (hi : s.intensity = t.intensity) :
    s.payload = t.payload := by
  have hcell : s.cell = t.cell := by funext k; rw [State.cell, hfb, State.cell]
  funext x
  cases x <;> simp only [State.payload, State.cells, State.size, hcell, hp, hi]

theorem State.refresh_with_ovf (s : State) (b : Bool) : ({ s with ovf := b } : State).refresh = { s.refresh with ovf := b } := by
  simp only [State.refresh_eq, State.payload_congr (s := { s with ovf := b }) (t := s) rfl rfl rfl]

/-- The guard of setup and the meaning behind it read no `ovf`, and the meaning keeps the one it finds. -/
theorem exec_with_ovf {i : Instr} (hchar : i.isCharacter = false) (hpbegin : ∀ p, i ≠ .pbegin p) (s : State) (b : Bool) :
    exec i { s with ovf := b } = outcomeWithOvf b (exec i s) := by
  cases i with
  | pbegin p => exact absurd rfl (hpbegin p)
  | reserved101 _ | reserved11x _ | cmd0x44 => rfl
  | clear _ | cmdDataAutoinc | cmdAddrFirst | cmdDisplayCtrl _ => exact s.whenInited_with_ovf b rfl
  | display _ => exact s.whenInited_with_ovf b (congrArg Host.Outcome.next (s.refresh_with_ovf b))
  | init _ =>
    simp only [exec, execInit]
    split
    · rfl
    · exact congrArg (fun u : State => Host.Outcome.next { u with inited := true }) (s.setupLines.refresh_with_ovf b)
  | _ => cases hchar

/-- Settles O54: none of these meanings reads `ovf`, and each keeps the value it finds. -/
theorem otherOperationsDoNotSeeOverflow : Obligations.OtherOperationsDoNotSeeOverflow :=
  fun _ s b hchar hpbegin => exec_with_ovf hchar hpbegin s b

end Sys2Proof.Machine

namespace Sys2Proof.Machine

/-! ### What every character does after setup (41_text_formatter.md R70 to R75) -/

/-- The cell a character is processed at. -/
def State.characterCell (s : State) (i : Instr) : Nat := if i.isPoint then s.pointTarget else s.cursorIndex

/-- The byte a character writes to the cell it is processed at. -/
def State.characterByte (s : State) (i : Instr) : Byte :=
  if i.isPoint then withPoint (s.cell s.pointTarget)
  else match i.glyphCode with
    | some c => segmentByte (romRead (romAddress c))
    | none => segmentByte blankPattern

/-- The state a character leaves: ignored, Overflow, or its byte written and the cursor behind it. -/
def State.afterCharacter (s : State) (i : Instr) : State :=
  if s.ovf then s
  else if s.size ≤ s.characterCell i then s.raiseOverflow
  else (s.storeCell (s.characterCell i) (s.characterByte i)).setCursor (s.characterCell i + 1)

theorem State.characterCell_of_isPoint {i : Instr} (h : i.isPoint = true) (s : State) : s.characterCell i = s.pointTarget := by
  rw [State.characterCell, if_pos h]

theorem State.characterCell_of_not_isPoint {i : Instr} (h : i.isPoint = false) (s : State) :
    s.characterCell i = s.cursor.toNat := by
  rw [State.characterCell, h]
  rfl

theorem State.characterByte_of_isPoint {i : Instr} (h : i.isPoint = true) (s : State) :
    s.characterByte i = withPoint (s.cell (s.characterCell i)) := by
  rw [State.characterByte, if_pos h, State.characterCell_of_isPoint h]

theorem isPoint_of_glyphCode {i : Instr} {c : Byte} (h : i.glyphCode = some c) : i.isPoint = false := by
  cases i with
  | putc d =>
    have hd : charClass d = .glyph := by
      by_contra hne
      simp [Instr.glyphCode, hne] at h
    have hne : d ≠ pointCode := by
      rintro rfl
      cases hd
    simpa [Instr.isPoint] using hne
  | point2E => cases h
  | _ => rfl

theorem isPoint_of_isBlank {i : Instr} (h : i.isBlank = true) : i.isPoint = false := by
  cases i with
  | putc d =>
    have hne : d ≠ pointCode := by
      rintro rfl
      cases h
    simpa [Instr.isPoint] using hne
  | point2E => cases h
  | _ => rfl

theorem glyphCode_of_isBlank {i : Instr} (h : i.isBlank = true) : i.glyphCode = none := by
  cases i with
  | putc d =>
    have hd : charClass d = .blank := by simpa [Instr.isBlank] using h
    simp [Instr.glyphCode, hd]
  | blank00to1F _ | blank7F | blank80toFF _ => rfl
  | _ => cases h

theorem State.characterByte_of_glyphCode {i : Instr} {c : Byte} (h : i.glyphCode = some c) (s : State) :
    s.characterByte i = segmentByte (romRead (romAddress c)) := by
  simp [State.characterByte, isPoint_of_glyphCode h, h]

theorem State.characterByte_of_isBlank {i : Instr} (h : i.isBlank = true) (s : State) :
    s.characterByte i = segmentByte blankPattern := by
  simp [State.characterByte, isPoint_of_isBlank h, glyphCode_of_isBlank h]

theorem State.character_of_inited {s : State} (h : s.inited = true) (t : State) :
    s.character (.next t) = .next (if s.ovf then s else t) := by
  rw [State.character, State.whenInited_of h]
  split <;> rfl

/-- The one equation of all sixteen instructions that process a character. -/
theorem exec_character_of_inited {i : Instr} {s : State} (hi : i.isCharacter = true) (h : s.inited = true) :
    exec i s = .next (s.afterCharacter i) := by
  have hplain {cls : CharClass} {p : Pattern} (hcls : cls ≠ .point) (hp : i.isPoint = false)
      (hbyte : s.characterByte i = segmentByte p) (hexec : exec i s = s.character (s.putPattern cls p)) :
      exec i s = .next (s.afterCharacter i) := by
    rw [hexec, State.putPattern_eq s hcls, ← apply_ite Host.Outcome.next, State.character_of_inited h,
      State.afterCharacter, State.characterCell_of_not_isPoint hp, hbyte, State.cursorIndex_eq]
  obtain hp | ⟨hp, hb⟩ | ⟨hp, c, hg⟩ := isCharacter_cases hi
  · rw [exec_of_isPoint hp, State.putPoint_eq, ← apply_ite Host.Outcome.next, State.character_of_inited h,
      State.afterCharacter, State.characterByte_of_isPoint hp, State.characterCell_of_isPoint hp]
  · exact hplain (by simp) hp (s.characterByte_of_isBlank hb) (exec_of_isBlank hb s)
  · exact hplain (by simp) hp (s.characterByte_of_glyphCode hg) (exec_of_glyphCode hg s)

/-- A character that answers next was run after setup. -/
theorem exec_character_next {i : Instr} {s t : State} (hi : i.isCharacter = true) (h : exec i s = .next t) :
    s.inited = true ∧ t = s.afterCharacter i := by
  have hinit : s.inited = true := by
    cases hs : s.inited with
    | true => rfl
    | false =>
      have hmeaning : i.hasNoMeaning = false := by
        cases i with
        | reserved101 _ | reserved11x _ | cmd0x44 => cases hi
        | _ => rfl
      rw [operationsBeforeInitAreRefused i s hs (by rintro a rfl; cases hi) hmeaning] at h
      cases h
  rw [exec_character_of_inited hi hinit] at h
  cases h
  exact ⟨hinit, rfl⟩

theorem State.afterCharacter_of_ovf {s : State} (h : s.ovf = true) (i : Instr) : s.afterCharacter i = s := by
  rw [State.afterCharacter, if_pos h]

theorem State.afterCharacter_of_le {s : State} {i : Instr} (ho : s.ovf = false) (h : s.size ≤ s.characterCell i) :
    s.afterCharacter i = s.raiseOverflow := by
  simp [State.afterCharacter, ho, h]

theorem State.afterCharacter_of_lt {s : State} {i : Instr} (ho : s.ovf = false) (h : s.characterCell i < s.size) :
    s.afterCharacter i = (s.storeCell (s.characterCell i) (s.characterByte i)).setCursor (s.characterCell i + 1) := by
  simp [State.afterCharacter, ho, h]

/-- A character that is processed at an existing cell: that cell, the others, the cursor, and the frame. -/
theorem exec_character_wrote {i : Instr} {s : State} (hi : i.isCharacter = true) (hf : FbOk s) (h : s.inited = true)
    (ho : s.ovf = false) (hlt : s.characterCell i < s.size) :
    ∃ t, exec i s = .next t ∧ t.cell (s.characterCell i) = s.characterByte i ∧
      (∀ k, k ≠ s.characterCell i → t.cell k = s.cell k) ∧ t.cursor.toNat = s.characterCell i + 1 ∧
      t = { s with fb := t.fb, cursor := t.cursor } := by
  refine ⟨_, exec_character_of_inited hi h, ?_⟩
  rw [State.afterCharacter_of_lt ho hlt]
  refine ⟨?_, fun k hk => ?_, State.setCursor_toNat hlt _, rfl⟩
  · rw [State.cell_setCursor, State.cell_storeCell hf.1, if_pos rfl]
  · rw [State.cell_setCursor, State.cell_storeCell hf.1, if_neg (Ne.symm hk)]

/-! ### Glyphs, blanks and points (41_text_formatter.md R71 to R76, R80) -/

theorem isCharacter_of_glyphCode {i : Instr} {c : Byte} (h : i.glyphCode = some c) : i.isCharacter = true := by
  cases i with
  | init _ | clear _ | pbegin _ | display _ | reserved101 _ | reserved11x _ | cmdDataAutoinc | cmdAddrFirst | cmdDisplayCtrl _
  | cmd0x44 => cases h
  | _ => rfl

theorem isCharacter_of_isBlank {i : Instr} (h : i.isBlank = true) : i.isCharacter = true := by
  cases i with
  | putc _ | blank00to1F _ | blank7F | blank80toFF _ => rfl
  | _ => cases h

theorem isCharacter_of_isPoint {i : Instr} (h : i.isPoint = true) : i.isCharacter = true := by
  cases i with
  | putc _ | point2E => rfl
  | _ => cases h

/-- A pattern has seven bits, so the byte it is written as has bit 7 clear (41_text_formatter.md R81). -/
theorem segmentByte_bit7 (p : Pattern) : (segmentByte p).getLsbD 7 = false := by
  simp [segmentByte]

/-- The point bit is bit 7, so the seven segment bits stay. -/
theorem withPoint_low (b : Byte) : (withPoint b).extractLsb' 0 7 = b.extractLsb' 0 7 := by
  rw [withPoint, BitVec.extractLsb'_or, show pointMask.extractLsb' 0 7 = 0#7 from rfl, BitVec.or_zero]

theorem withPoint_withPoint (b : Byte) : withPoint (withPoint b) = withPoint b := by
  rw [withPoint, withPoint, BitVec.or_assoc, BitVec.or_self]

/-- Settles O17: a GLYPH is processed at the cursor and writes its ROM word. -/
theorem glyphWritesItsPattern : Obligations.GlyphWritesItsPattern := by
  intro i c s hg hf h ho hlt
  have hcell := s.characterCell_of_not_isPoint (isPoint_of_glyphCode hg)
  obtain ⟨t, hexec, hbyte, hframe⟩ := exec_character_wrote (isCharacter_of_glyphCode hg) hf h ho (hcell ▸ hlt)
  rw [hcell, s.characterByte_of_glyphCode hg] at hbyte
  rw [hcell] at hframe
  exact ⟨t, hexec, hbyte, by rw [hbyte, segmentByte_bit7], hframe⟩

/-- Settles O18: a BLANK is processed at the cursor and writes the blank pattern. -/
theorem blankWritesTheBlankPattern : Obligations.BlankWritesTheBlankPattern := by
  intro i s hb hf h ho hlt
  have hcell := s.characterCell_of_not_isPoint (isPoint_of_isBlank hb)
  obtain ⟨t, hexec, hbyte, hframe⟩ := exec_character_wrote (isCharacter_of_isBlank hb) hf h ho (hcell ▸ hlt)
  rw [hcell, s.characterByte_of_isBlank hb] at hbyte
  rw [hcell] at hframe
  exact ⟨t, hexec, hbyte, hframe⟩

/-- Settles O19: the point is processed at its target and writes that cell's old value with the point bit. -/
theorem pointSetsThePointBit : Obligations.PointSetsThePointBit := by
  intro i s k hp hf h ho hk hlt
  obtain rfl : s.characterCell i = k := by rw [s.characterCell_of_isPoint hp, s.pointTarget_eq, hk]
  obtain ⟨t, hexec, hbyte, hframe⟩ := exec_character_wrote (isCharacter_of_isPoint hp) hf h ho hlt
  rw [s.characterByte_of_isPoint hp] at hbyte
  exact ⟨t, hexec, hbyte, by rw [hbyte, withPoint_low], hframe⟩

/-- Settles O20: either way the cell the character is processed at does not exist. -/
theorem overflowSetsTheFlagOnly : Obligations.OverflowSetsTheFlagOnly := by
  intro i s hi h ho hle
  have hcell : s.size ≤ s.characterCell i := by
    obtain ⟨hp, hle⟩ | ⟨hp, hle⟩ := hle
    · rwa [s.characterCell_of_not_isPoint hp]
    · rwa [s.characterCell_of_isPoint hp, s.pointTarget_eq]
  rw [exec_character_of_inited hi h, State.afterCharacter_of_le ho hcell]
  rfl

/-- In a print operation the point's cell does not exist exactly if nothing was printed from a start at or behind the end: once the
cursor has advanced it is at most `N`. -/
theorem PrintOk.size_le_pointTarget_iff {s : State} (h : PrintOk s) :
    s.size ≤ s.pointTarget ↔ s.cursor = s.start ∧ s.size ≤ s.start.toNat := by
  obtain ⟨hlo, hhi⟩ := h
  rw [State.cursorIndex_eq] at hlo hhi
  rw [← BitVec.toNat_inj]
  have := s.pointTarget_cases
  omega

/-- Settles O21: the point overflows exactly if its target does not exist. -/
theorem pointOverflowsOnlyAtAStartBehindTheEnd : Obligations.PointOverflowsOnlyAtAStartBehindTheEnd := by
  intro i s hp hok h ho
  rw [← hok.size_le_pointTarget_iff, ← s.characterCell_of_isPoint hp]
  refine ⟨fun hexec => ?_, fun hle => ?_⟩
  · by_contra hlt
    rw [exec_character_of_inited (isCharacter_of_isPoint hp) h, State.afterCharacter_of_lt ho (by omega)] at hexec
    have hovf := congrArg State.ovf (Host.Outcome.next.inj hexec)
    rw [State.setCursor_ovf, State.storeCell_ovf, ho] at hovf
    cases hovf
  · rw [exec_character_of_inited (isCharacter_of_isPoint hp) h, State.afterCharacter_of_le ho hle]
    rfl

/-- Settles O22: the first test of a character is `ovf`. -/
theorem charactersAreIgnoredAfterOverflow : Obligations.CharactersAreIgnoredAfterOverflow := by
  intro i s hi h ho
  rw [exec_character_of_inited hi h, State.afterCharacter_of_ovf ho]

/-- The class of a code is the class of its row. -/
theorem decodeChar_class : ∀ c : Byte, (decodeChar c).isPoint = (Instr.putc c).isPoint ∧
    (decodeChar c).isBlank = (Instr.putc c).isBlank ∧ (decodeChar c).glyphCode = (Instr.putc c).glyphCode := by decide

/-- Settles O23: PUTC dispatches on the class of the code, which is the class of its row. -/
theorem putcRunsTheRowOfItsCode : Obligations.PutcRunsTheRowOfItsCode := by
  intro c s
  obtain ⟨hpoint, hblank, hglyph⟩ := decodeChar_class c
  obtain hp | ⟨_, hb⟩ | ⟨_, d, hg⟩ := isCharacter_cases (i := .putc c) rfl
  · rw [exec_of_isPoint hp, exec_of_isPoint (hpoint.trans hp)]
  · rw [exec_of_isBlank hb, exec_of_isBlank (hblank.trans hb)]
  · rw [exec_of_glyphCode hg, exec_of_glyphCode (hglyph.trans hg)]

/-- Behind the cell of a point that merges is the cursor; every other character is processed at the cursor. -/
theorem State.characterCell_succ (s : State) (i : Instr) :
    s.characterCell i + 1 =
      if i.isPoint = true ∧ s.start.toNat < s.cursor.toNat then s.cursor.toNat else s.cursor.toNat + 1 := by
  cases hp : i.isPoint with
  | false => simp [State.characterCell_of_not_isPoint hp]
  | true =>
    rw [State.characterCell_of_isPoint hp]
    obtain ⟨hlt, hk⟩ | ⟨hle, hk⟩ := s.pointTarget_cases
    · rw [if_pos ⟨rfl, hlt⟩, hk]
    · rw [if_neg (fun h => absurd h.2 (by omega)), hk]

/-- Settles O24: ignored and overflowing characters leave the cursor, the others set it behind their cell. -/
theorem cursorAdvance : Obligations.CursorAdvance := by
  intro i s t hi h
  obtain ⟨_, rfl⟩ := exec_character_next hi h
  cases ho : s.ovf with
  | true => simp [State.afterCharacter_of_ovf ho, ho]
  | false =>
    obtain hle | hlt := le_or_gt s.size (s.characterCell i)
    · simp [State.afterCharacter_of_le ho hle]
    · have hcursor := State.setCursor_toNat hlt (s.storeCell (s.characterCell i) (s.characterByte i))
      rw [s.characterCell_succ i] at hcursor
      rw [State.afterCharacter_of_lt ho hlt, s.characterCell_succ i]
      refine ⟨fun hovf => ?_, fun _ => hcursor, ?_⟩
      · rw [State.setCursor_ovf, State.storeCell_ovf, ho] at hovf
        simp at hovf
      · rw [hcursor]
        split <;> omega

/-- Once the cursor is behind a cell of the print operation, that cell is the point's target. -/
theorem State.pointTarget_of_cursor {s : State} {k : Nat} (hc : s.cursor.toNat = k + 1) (hs : s.start.toNat ≤ k) :
    s.pointTarget = k := by
  rw [State.pointTarget_eq, if_pos (by omega)]
  omega

/-- In a print operation the point's target is not before the start. -/
theorem PrintOk.start_le_pointTarget {s : State} (h : PrintOk s) : s.start.toNat ≤ s.pointTarget := by
  have hlo : s.start.toNat ≤ s.cursor.toNat := h.1
  have := s.pointTarget_cases
  omega

theorem State.storeCell_cell {s : State} (h : Memory.wf s.fb = true) (k : Nat) : s.storeCell k (s.cell k) = s := by
  rw [State.storeCell, State.cell, Memory.write_read h]

theorem State.setCursor_self {s : State} {k : Nat} (h : s.cursor.toNat = k) : s.setCursor k = s := by
  rw [State.setCursor, ← h, BitVec.ofNat_toNat, BitVec.setWidth_eq]

/-- A point changes nothing where its target already has the point bit and the cursor is behind it. -/
theorem State.afterCharacter_of_pointed {s : State} {j : Instr} {k : Nat} (hj : j.isPoint = true) (hf : Memory.wf s.fb = true)
    (ho : s.ovf = false) (hk : k < s.size) (hc : s.cursor.toNat = k + 1) (hs : s.start.toNat ≤ k)
    (hcell : withPoint (s.cell k) = s.cell k) : s.afterCharacter j = s := by
  have htarget : s.characterCell j = k := (s.characterCell_of_isPoint hj).trans (s.pointTarget_of_cursor hc hs)
  rw [State.afterCharacter_of_lt ho (htarget ▸ hk), s.characterByte_of_isPoint hj, htarget, hcell, State.storeCell_cell hf,
    State.setCursor_self hc]

/-- Settles O25: after the first point the cursor is behind its cell, which is then the second point's cell too, and whose point bit
is already set. -/
theorem secondPointChangesNothing : Obligations.SecondPointChangesNothing := by
  intro i j s t hi hj hf hok h
  have hcj := isCharacter_of_isPoint hj
  obtain ⟨hinit, rfl⟩ := exec_character_next (isCharacter_of_isPoint hi) h
  cases ho : s.ovf with
  | true => rw [State.afterCharacter_of_ovf ho, charactersAreIgnoredAfterOverflow j s hcj hinit ho]
  | false =>
    obtain hle | hlt := le_or_gt s.size (s.characterCell i)
    · rw [State.afterCharacter_of_le ho hle]
      exact charactersAreIgnoredAfterOverflow j _ hcj hinit rfl
    · have hstart := hok.start_le_pointTarget
      rw [← s.characterCell_of_isPoint hi] at hstart
      rw [State.afterCharacter_of_lt ho hlt]
      refine (exec_character_of_inited hcj (by exact hinit)).trans (congrArg Host.Outcome.next ?_)
      refine State.afterCharacter_of_pointed hj (Memory.write_wf hf.1 _ _) ho hlt (State.setCursor_toNat hlt _) hstart ?_
      rw [State.cell_setCursor, State.cell_storeCell hf.1, if_pos rfl, s.characterByte_of_isPoint hi, withPoint_withPoint]

/-- The return value of a state whose cursor is not before its start. -/
theorem State.ret_toNat {s : State} (h : s.start.toNat ≤ s.cursor.toNat) : s.ret.toNat = s.cursor.toNat - s.start.toNat :=
  BitVec.toNat_sub_of_le h

/-- Settles O26: in a print operation the cursor is not before the start, so the difference does not wrap. -/
theorem returnValueCountsPositions : Obligations.ReturnValueCountsPositions := by
  rintro s ⟨hlo, hhi⟩
  rw [State.cursorIndex_eq] at hlo hhi
  have hret := State.ret_toNat hlo
  refine ⟨hret, by omega, fun hle => BitVec.eq_of_toNat_eq ?_⟩
  rw [hret, BitVec.toNat_ofNat]
  omega

/-! ### The busy period of the short operations (70_reset_and_hazards.md R143) -/

/-- After setup CLEAR, PBEGIN and PUTC answer a next state. -/
theorem exec_short_next {i : Instr} {s : State} (h : s.inited = true)
    (hi : (∃ a, i = .clear a) ∨ (∃ p, i = .pbegin p) ∨ ∃ c, i = .putc c) : ∃ t, exec i s = .next t := by
  obtain ⟨a, rfl⟩ | ⟨p, rfl⟩ | ⟨c, rfl⟩ := hi
  · exact ⟨_, exec_clear_of_inited h a⟩
  · exact ⟨_, exec_pbegin_of_inited h p⟩
  · exact ⟨_, exec_character_of_inited rfl h⟩

/-- Settles O60: the short operation leaves `busy` and `seq` as it finds them, so the one clock edge takes back what the accepting
edge set. -/
theorem shortOperationsAreBusyForOnePeriod : Obligations.ShortOperationsAreBusyForOnePeriod := by
  rintro i s hi hr hinit ⟨hbusy, hseq⟩
  obtain ⟨t, ht⟩ := exec_short_next hinit hi
  have hframe : t = { s with fb := t.fb, start := t.start, cursor := t.cursor, ovf := t.ovf } := by
    refine formatterDoesNotTouchTheWire i s t ?_ ht
    obtain hc | hp | ⟨c, rfl⟩ := hi
    · exact .inr (.inl hc)
    · exact .inr (.inr hp)
    · exact .inl rfl
  have htb : t.busy = false := by rw [hframe]; exact hbusy
  have hts : t.seq = none := by rw [hframe]; exact hseq
  have htr : t.rst = false := by rw [hframe]; exact hr
  have hedge : step { t with busy := true } = .next t := by
    rw [step_of_busy (s := { t with busy := true }) htr rfl, State.clockEdge_idle (s := { t with busy := true }) hts, ← htb]
  exact ⟨t, _, ht, State.acceptShort_next ht, rfl, hedge, by rw [State.cmdReady, htb, Bool.not_false]⟩

end Sys2Proof.Machine

namespace Sys2Proof.Machine

/-! ### Every step keeps an invariant that reset gives and that instructions and clock edges keep -/

/-- The four things a step can do, as four duties of an invariant; waiting and consuming a unit touch `pending` only. -/
theorem step_keeps {P : State → Prop} {s t : State} (h : P s) (hst : step s = .next t) (hreset : P s.applyReset)
    (hclock : s.busy = true → P s.clockEdge) (hpending : ∀ rest, P { s with pending := rest })
    (hexec : ∀ i u, P u → ExecStep i u t → P t) : P t := by
  obtain ⟨_, rfl⟩ | ⟨_, hb, rfl⟩ | ⟨_, _, _, rfl⟩ | ⟨_, _, _, rest, i, _, _, hi⟩ := step_cases hst
  · exact hreset
  · exact hclock hb
  · exact h
  · exact hexec i _ (hpending rest) hi

/-! ### The Framebuffer (10_state.md R13) -/

theorem FbOk.storeCell {s : State} (h : FbOk s) {k : Nat} (hk : k < s.size) (v : Byte) : FbOk (s.storeCell k v) := by
  refine ⟨Memory.write_wf h.1 k v, fun e he => ?_⟩
  obtain rfl | he := Memory.mem_write he
  · exact hk
  · exact h.2 e he

theorem FbOk.characterStep {s t : State} (h : FbOk s) (ht : CharacterStep s t) : FbOk t := by
  cases ht with
  | ignored _ => exact h
  | overflow _ => exact h
  | wrote _ k v hk _ => exact (h.storeCell hk v).of_eq rfl rfl

theorem FbOk.execStep {i : Instr} {s t : State} (h : FbOk s) (ht : ExecStep i s t) : FbOk t := by
  cases ht with
  | init _ _ _ => exact h.of_eq s.setupLines.refresh_fb s.setupLines.refresh_params
  | clear _ _ _ => exact ⟨rfl, nofun⟩
  | pbegin p _ _ => exact h.of_eq (s.loadPrint_fb p) (s.loadPrint_params p)
  | character _ _ _ hc => exact h.characterStep hc
  | display _ _ _ => exact h.of_eq s.refresh_fb s.refresh_params
  | txn bs _ _ _ => exact h.of_eq (s.txn_fb bs) (s.txn_params bs)

/-- Settles O44: only CLEAR, which lists no cell, and a character, which writes an existing one, touch the Framebuffer. -/
theorem stepKeepsTheFramebufferInBounds : Obligations.StepKeepsTheFramebufferInBounds := by
  intro s t h hst
  exact step_keeps h hst ⟨rfl, nofun⟩ (fun _ => h.of_eq s.clockEdge_frame.fb s.clockEdge_frame.params) (fun _ => h)
    (fun _ _ hu => hu.execStep)

/-! ### The print operation (41_text_formatter.md R79) -/

theorem PrintOk.loadPrint (s : State) (p : Pos) : PrintOk (s.loadPrint p) :=
  ⟨le_refl _, le_max_left _ _⟩

theorem PrintOk.characterStep {s t : State} (h : PrintOk s) (ht : CharacterStep s t) : PrintOk t := by
  cases ht with
  | ignored _ => exact h
  | overflow _ => exact h
  | wrote _ k v hk hc =>
    have hstart : s.start.toNat ≤ k := by
      obtain rfl | rfl := hc
      · exact h.1
      · exact h.start_le_pointTarget
    have hcursor := State.setCursor_toNat hk (s.storeCell k v)
    unfold PrintOk
    rw [State.cursorIndex_eq, hcursor, State.setCursor_start, State.storeCell_start, State.size_setCursor, State.size_storeCell]
    omega

theorem PrintOk.execStep {i : Instr} {s t : State} (h : PrintOk s) (ht : ExecStep i s t) : PrintOk t := by
  cases ht with
  | init _ _ _ => exact h.of_eq s.setupLines.refresh_start s.setupLines.refresh_cursor s.setupLines.refresh_params
  | clear _ _ _ => exact h
  | pbegin p _ _ => exact PrintOk.loadPrint s p
  | character _ _ _ hc => exact h.characterStep hc
  | display _ _ _ => exact h.of_eq s.refresh_start s.refresh_cursor s.refresh_params
  | txn bs _ _ _ => exact h.of_eq (s.txn_start bs) (s.txn_cursor bs) (s.txn_params bs)

/-- Settles O45: PBEGIN and reset put the cursor at the start, and a character sets it behind an existing cell that is not before
the start. -/
theorem stepKeepsThePrintInvariant : Obligations.StepKeepsThePrintInvariant := by
  intro s t h hst
  have hframe := s.clockEdge_frame
  exact step_keeps h hst ⟨le_refl _, Nat.zero_le _⟩ (fun _ => h.of_eq hframe.start hframe.cursor hframe.params) (fun _ => h)
    (fun _ _ hu => hu.execStep)

/-! ### The wire between operations (42_protocol_driver.md R94, R96) -/

theorem WireOk.resetWith (p : Params) : WireOk (State.resetWith p) :=
  ⟨⟨rfl, rfl⟩, rfl, rfl, nofun, fun _ => rfl⟩

theorem WireOk.characterStep {s t : State} (h : WireOk s) (ht : CharacterStep s t) : WireOk t := by
  rw [ht.frame]
  exact h

theorem WireOk.txn {s : State} (h : WireOk s) (hi : s.inited = true) (bs : List Byte) : WireOk (s.txn bs) := by
  obtain ⟨hidle, hoe, htrace, hlines, _⟩ := h
  refine ⟨hidle, hoe, ?_, fun _ => ⟨clock_txnEvents _ bs, data_txnEvents _ bs⟩, fun hn => ?_⟩
  · rw [State.txn_trace, State.txn_frames, State.txn_inited, htrace, framesEvents_append, framesEvents_single, List.append_assoc]
  · rw [State.txn_inited, hi] at hn
    cases hn

theorem WireOk.refresh {s : State} (h : WireOk s) (hi : s.inited = true) : WireOk s.refresh :=
  ((h.txn hi _).txn hi _).txn hi _

/-- Setup puts `L0` in front of an empty trace, and the refresh cycle goes on from there. -/
theorem WireOk.init {s : State} (h : WireOk s) (hi : s.inited = false) : WireOk { s.setupLines.refresh with inited := true } := by
  obtain ⟨⟨hbusy, hseq⟩, _, htrace, _, hframes⟩ := h
  have hframes := hframes hi
  refine ⟨⟨?_, ?_⟩, s.setupLines.refresh_lineOe, ?_, fun _ => ⟨s.setupLines.refresh_clockO, s.setupLines.refresh_dataO⟩, nofun⟩
  · exact s.setupLines.refresh_busy.trans hbusy
  · exact s.setupLines.refresh_seq.trans hseq
  · simp [State.refresh_trace, State.refresh_frames, htrace, hframes, hi, setupEvents, framesEvents]

theorem WireOk.execStep {i : Instr} {s t : State} (h : WireOk s) (ht : ExecStep i s t) : WireOk t := by
  cases ht with
  | init _ _ hi => exact h.init hi
  | clear _ _ _ => exact h
  | pbegin _ _ _ => exact h
  | character _ _ _ hc => exact h.characterStep hc
  | display _ _ hi => exact h.refresh hi
  | txn bs _ _ hi => exact h.txn hi bs

/-- Settles O46: an idle block makes no clock edge, and INIT, DISPLAY and the wire commands append a trace and its frames
together. -/
theorem stepKeepsTheWireInvariant : Obligations.StepKeepsTheWireInvariant := by
  intro s t h hst
  have hnotBusy : s.busy ≠ true := by simp [h.1.1]
  exact step_keeps h hst (WireOk.resetWith s.params) (fun hb => absurd hb hnotBusy) (fun _ => h) (fun _ _ hu => hu.execStep)

end Sys2Proof.Machine

namespace Sys2Proof.Machine

/-! ### What a clock edge appends (70_reset_and_hazards.md R142) -/

/-- Leaving a phase writes no line. -/
theorem State.leavePhase_lines (s : State) (p : SeqPos) : (s.leavePhase p).trace = s.trace ∧
    (s.leavePhase p).clockO = s.clockO ∧ (s.leavePhase p).dataO = s.dataO := by
  unfold State.leavePhase
  split <;> exact ⟨rfl, rfl, rfl⟩

/-- Leaving a phase sends no frame, or at the end of a transaction its payload. -/
theorem State.leavePhase_frames (s : State) (p : SeqPos) :
    (s.leavePhase p).frames = s.frames ++ if p.phase = .stop2 then [s.payload p.txn] else [] := by
  unfold State.leavePhase
  split <;> simp [*]

theorem State.leavePhase_inited (s : State) (p : SeqPos) : (s.leavePhase p).inited = s.inited := by
  unfold State.leavePhase
  split <;> rfl

/-- Whatever a clock edge does to the lines and the trace is emitting some events. -/
theorem State.clockEdge_emits (s : State) : ∃ es, s.clockEdge.trace = s.trace ++ es ∧
    s.clockEdge.clockO = es.foldl clockAfter s.clockO ∧ s.clockEdge.dataO = es.foldl dataAfter s.dataO := by
  have hsilent {t : State} (h : t.trace = s.trace ∧ t.clockO = s.clockO ∧ t.dataO = s.dataO) :
      ∃ es, t.trace = s.trace ++ es ∧ t.clockO = es.foldl clockAfter s.clockO ∧ t.dataO = es.foldl dataAfter s.dataO :=
    ⟨[], by simp [h]⟩
  unfold State.clockEdge
  split
  · exact hsilent ⟨rfl, rfl, rfl⟩
  · next p _ =>
    split
    · exact hsilent ⟨rfl, rfl, rfl⟩
    · obtain ⟨htrace, hclock, hdata⟩ := s.leavePhase_lines p
      unfold State.advance
      split
      · next q _ =>
        exact ⟨phaseEvents ((s.leavePhase p).enterPhase q).sh q.phase ++ [.w], by rw [← htrace]; rfl, by rw [← hclock]; rfl,
          by rw [← hdata]; rfl⟩
      · exact hsilent ⟨htrace, hclock, hdata⟩

theorem State.clockEdge_frames (s : State) :
    ∃ fs, s.clockEdge.frames = s.frames ++ fs ∧ ∀ f ∈ fs, CommandFrame s.size f := by
  have hsilent {t : State} (h : t.frames = s.frames) : ∃ fs, t.frames = s.frames ++ fs ∧ ∀ f ∈ fs, CommandFrame s.size f :=
    ⟨[], by simp [h]⟩
  unfold State.clockEdge
  split
  · exact hsilent rfl
  · next p _ =>
    split
    · exact hsilent rfl
    · have hframes : (s.advance p).frames = (s.leavePhase p).frames := by
        unfold State.advance
        split <;> rfl
      refine ⟨_, hframes.trans (s.leavePhase_frames p), fun f hf => ?_⟩
      split at hf
      · obtain rfl := List.mem_singleton.1 hf
        exact s.commandFrame_payload p.txn
      · cases hf

/-- `inited` changes with the end of an operation only. -/
theorem State.clockEdge_inited {s : State} (h : s.clockEdge.busy = true) : s.clockEdge.inited = s.inited := by
  unfold State.clockEdge at h ⊢
  split
  · rfl
  · next p hp =>
    split
    · rfl
    · simp only [hp] at h
      rw [if_neg ‹_›] at h
      unfold State.advance at h ⊢
      split
      · exact s.leavePhase_inited p
      · next hnone =>
        rw [hnone] at h
        cases h

/-- Settles O14: a busy step is one clock edge, whose frame names these registers. -/
theorem busyBlockAcceptsNothing : Obligations.BusyBlockAcceptsNothing := by
  intro s hr hb
  have hf := s.clockEdge_frame
  exact ⟨s.clockEdge, step_of_busy hr hb, hf.pending, hf.fb, hf.start, hf.cursor, hf.ovf, hf.intensity, hf.params, hf.lineOe,
    State.clockEdge_inited⟩

/-! ### What an instruction appends -/

/-- A refresh cycle appends the events of its three transactions (42_protocol_driver.md R91). -/
theorem State.refresh_appends_events (s : State) :
    s.refresh.trace = s.trace ++ framesEvents ([.mode, .data, .ctrl].map s.payload) := by
  simp [State.refresh_trace, framesEvents]

/-- Whatever an instruction does to the trace, it only appends to it. -/
theorem ExecStep.appends_events {i : Instr} {s t : State} (h : ExecStep i s t) : ∃ es, t.trace = s.trace ++ es := by
  have hnone (he : t.trace = s.trace) : ∃ es, t.trace = s.trace ++ es := ⟨[], by rw [he, List.append_nil]⟩
  cases h with
  | init _ _ _ => exact ⟨_, s.setupLines.refresh_appends_events.trans (List.append_assoc _ _ _)⟩
  | clear _ _ _ => exact hnone s.clearCells_trace
  | pbegin p _ _ => exact hnone (s.loadPrint_trace p)
  | character _ _ _ ht => exact hnone (by rw [ht.frame])
  | display _ _ _ => exact ⟨_, s.refresh_appends_events⟩
  | txn bs _ _ _ => exact ⟨_, s.txn_trace bs⟩

/-- Settles O52: a clock edge and an instruction append, and nothing but a reset takes away. -/
theorem traceOnlyGrows : Obligations.TraceOnlyGrows := by
  intro s t hr hst
  obtain ⟨hrst, _⟩ | ⟨_, _, rfl⟩ | ⟨_, _, _, rfl⟩ | ⟨_, _, _, rest, i, _, _, hi⟩ := step_cases hst
  · rw [hr] at hrst
    cases hrst
  · obtain ⟨es, htrace, _⟩ := s.clockEdge_emits
    obtain ⟨fs, hframes, _⟩ := s.clockEdge_frames
    exact ⟨⟨es, htrace⟩, fs, hframes⟩
  · exact ⟨⟨[], (List.append_nil _).symm⟩, [], (List.append_nil _).symm⟩
  · obtain ⟨fs, hframes, _⟩ := hi.appends_commandFrames
    exact ⟨hi.appends_events, fs, hframes⟩

/-! ### The levels of the lines (10_state.md R24) -/

/-- Once both levels are known, a trace's events act on them as they act on the lines; `L0` too. -/
theorem traceLevels_append {es : List WireEvent} {c d : Level} (h : traceLevels es = some (c, d)) (fs : List WireEvent) :
    traceLevels (es ++ fs) = some (fs.foldl clockAfter c, fs.foldl dataAfter d) := by
  rw [traceLevels, List.foldl_append, ← traceLevels, h]
  clear h
  induction fs generalizing c d with
  | nil => rfl
  | cons e fs ih =>
    have he : (if e = .l0 then some (Level.low, Level.low) else (some (c, d)).map fun p => (clockAfter p.1 e, dataAfter p.2 e)) =
        some (clockAfter c e, dataAfter d e) := by
      cases e <;> rfl
    rw [List.foldl_cons, he, ih]
    rfl

/-- Lines that are driven like their trace stay so by emitting. -/
theorem LinesOk.of_emits {s t : State} (h : LinesOk s) (hoe : t.lineOe = s.lineOe) {es : List WireEvent}
    (ht : t.trace = s.trace ++ es) (hc : t.clockO = es.foldl clockAfter s.clockO) (hd : t.dataO = es.foldl dataAfter s.dataO) :
    LinesOk t := by
  intro hdriven
  rw [ht, hc, hd, traceLevels_append (h (hoe ▸ hdriven))]

theorem LinesOk.txn {s : State} (h : LinesOk s) (bs : List Byte) : LinesOk (s.txn bs) :=
  h.of_emits (s.txn_lineOe bs) (s.txn_trace bs) (s.txn_clockO bs) (s.txn_dataO bs)

theorem LinesOk.refresh {s : State} (h : LinesOk s) : LinesOk s.refresh :=
  ((h.txn _).txn _).txn _

/-- `L0` gives both lines the level Low, whatever came before it. -/
theorem LinesOk.setupLines (s : State) : LinesOk s.setupLines := by
  intro _
  rw [State.setupLines_trace, traceLevels, List.foldl_append]
  rfl

theorem LinesOk.execStep {i : Instr} {s t : State} (h : LinesOk s) (ht : ExecStep i s t) : LinesOk t := by
  cases ht with
  | init _ _ _ => exact (LinesOk.setupLines s).refresh
  | clear _ _ _ => exact h
  | pbegin _ _ _ => exact h
  | character _ _ _ hc => rw [hc.frame]; exact h
  | display _ _ _ => exact h.refresh
  | txn bs _ _ _ => exact h.txn bs

/-- Settles O47: a clock edge and a transaction emit their events on the lines, and the trace's levels follow every emission. -/
theorem stepKeepsTheLinesWithTheTrace : Obligations.StepKeepsTheLinesWithTheTrace := by
  intro s t h hst
  obtain ⟨es, htrace, hclock, hdata⟩ := s.clockEdge_emits
  exact step_keeps h hst nofun (fun _ => h.of_emits s.clockEdge_frame.lineOe htrace hclock hdata) (fun _ => h)
    (fun _ _ hu => hu.execStep)

/-! ### Frames, intensity and parameters (30_encoding.md R52, R55, R57; 10_state.md R18) -/

theorem FramesOk.of_appends {s t : State} (h : FramesOk s) (hp : t.params = s.params)
    (hf : ∃ fs, t.frames = s.frames ++ fs ∧ ∀ f ∈ fs, CommandFrame s.size f) : FramesOk t := by
  obtain ⟨fs, happ, hfs⟩ := hf
  intro f hmem
  rw [happ] at hmem
  have hcommand : CommandFrame s.size f := (List.mem_append.1 hmem).elim (h f) (hfs f)
  rwa [State.size, hp]

/-- Settles O48: clock edges and instructions append frames of the block's only. -/
theorem stepSendsOnlyCommandFrames : Obligations.StepSendsOnlyCommandFrames := by
  refine ⟨fun s t h hst => ?_, fun _ _ hf => hf.head?_ne_0x44⟩
  exact step_keeps h hst nofun (fun _ => h.of_appends s.clockEdge_frame.params s.clockEdge_frames) (fun _ => h)
    (fun _ _ hu hi => hu.of_appends hi.intensity_params.2 hi.appends_commandFrames)

/-- Settles O49: a reset loads the intensity from the parameters, and nothing else writes either. -/
theorem stepKeepsIntensityAndParameters : Obligations.StepKeepsIntensityAndParameters := by
  intro s t h hst
  refine step_keeps (P := fun u => IntensityOk u ∧ u.params = s.params) ⟨h, rfl⟩ hst ⟨rfl, rfl⟩ (fun _ => ?_) (fun _ => ⟨h, rfl⟩)
    (fun i u hu hi => ?_)
  · have hf := s.clockEdge_frame
    exact ⟨by rw [IntensityOk, hf.intensity, hf.params]; exact h, hf.params⟩
  · obtain ⟨hint, hpar⟩ := hi.intensity_params
    exact ⟨by rw [IntensityOk, hint, hpar]; exact hu.1, hpar.trans hu.2⟩

/-- Settles O50: after reset nothing is listed, printed, sent or driven, and the intensity is the parameter's. -/
theorem resetMeetsTheInvariants : Obligations.ResetMeetsTheInvariants :=
  fun p => ⟨⟨rfl, nofun⟩, ⟨le_refl _, Nat.zero_le _⟩, WireOk.resetWith p, nofun, nofun, rfl⟩

/-- Settles O9: each bound is built into the making of its parameter. -/
theorem blockParametersAreValid : Obligations.BlockParametersAreValid := by
  have hdelay := Config.delayNanos_pos Config.delay
  have hperiod : 0 < Config.rawPeriod + 1 := Nat.succ_pos _
  obtain ⟨hone, hlong⟩ := leastCycles_spec hdelay hperiod
  have hn : 1 ≤ Config.params.n.toNat := by
    simp only [Config.params]
    split
    · decide
    · next hne =>
      have : Config.rawLength.toNat ≠ 0 := fun h => hne (BitVec.eq_of_toNat_eq h)
      omega
  exact ⟨hn, hdelay, hperiod, Nat.le_add_right_of_le hone, hlong.trans (Nat.mul_le_mul_right _ (Nat.le_add_right _ _))⟩

end Sys2Proof.Machine

namespace Sys2Proof.Machine

/-! ### The wire commands and the refresh cycle (42_protocol_driver.md R91) -/

/-- Settles O33: each wire command is its transaction, whose record update names what changes. -/
theorem wireCommandsSendTheirTransactions : Obligations.WireCommandsSendTheirTransactions := by
  intro i bs s h hi
  have hexec : exec i s = .next (s.txn bs) := by
    obtain ⟨rfl, rfl⟩ | ⟨rfl, rfl⟩ | ⟨k, rfl, rfl⟩ := hi
    · exact State.whenInited_of h _
    · exact State.whenInited_of h _
    · rw [← controlByte_eq_add]
      exact State.whenInited_of h _
  exact ⟨s.txn bs, hexec, s.txn_trace bs, s.txn_frames bs, clock_txnEvents _ bs, data_txnEvents _ bs, by rw [State.txn_eq]⟩

/-- Settles O39: the refresh cycle sends its payloads, which it does not change. -/
theorem repeatedDisplaySendsTheSame : Obligations.RepeatedDisplaySendsTheSame := by
  intro a b s h
  have hagain : exec (.display b) s.refresh = .next s.refresh.refresh := exec_display_of_inited (s.refresh_inited.trans h) b
  refine ⟨s.refresh, s.refresh.refresh, framesEvents ([.mode, .data, .ctrl].map s.payload), exec_display_of_inited h a, hagain,
    s.refresh_appends_events, ?_, ?_⟩
  · rw [s.refresh.refresh_appends_events]
    simp only [List.map, State.payload_refresh]
  · simp [framesEvents, txnEvents, startEvents]

/-- Settles O32: after reset every cell reads 0x00, and INIT sends the cells as they are. -/
theorem initAfterResetSendsBlankCells : Obligations.InitAfterResetSendsBlankCells := by
  intro a p
  refine ⟨_, exec_init_of_not_inited (State.resetWith_inited p) a, ?_⟩
  have hcells : (State.resetWith p).cells = List.replicate p.n.toNat 0x00#8 := (State.resetWith p).cells_clearCells
  simp only [State.refresh_frames, State.payload_setupLines, State.setupLines_frames]
  simp only [State.payload, hcells, controlByte_eq_add, State.resetWith_intensity]
  rfl

/-! ### The edges of INIT (43_refresh_orchestration.md R101) -/

/-- With DATA Low already, START has no edge: the first transaction of INIT shows only its STOP. -/
theorem dataChangesWhileHigh_txnEvents_low {bs : List Byte} (h : bs ≠ []) :
    dataChangesWhileHigh .low .low (txnEvents bs) = [.high] := by
  rw [txnEvents, dataChangesWhileHigh_append, dataChangesWhileHigh_append, List.foldl_append, clock_bytesEvents h,
    dataChangesWhileHigh_of_no_writes (dataWritesWhileHigh_bytesEvents _ bs), dataChangesWhileHigh_stopEvents]
  rfl

/-- START does not write CLOCK, and a transaction begins by driving it Low, so its rises are the same from either level. -/
theorem clockRises_txnEvents_low {bs : List Byte} (h : bs ≠ []) : clockRises .low (txnEvents bs) = 8 * bs.length + 1 := by
  rw [txnEvents, clockRises_append, clockRises_append, List.foldl_append, clock_bytesEvents h, clockRises_bytesEvents,
    clockRises_stopEvents, show clockRises .low startEvents = 0 from rfl, Nat.zero_add]

theorem State.payload_ne_nil (s : State) (x : Txn) : s.payload x ≠ [] := by
  cases x <;> exact List.cons_ne_nil _ _

/-- Settles O37: transaction 0 begins with both lines Low, transactions 1 and 2 from bus idle. -/
theorem initFirstTransactionHasNoStartEdge : Obligations.InitFirstTransactionHasNoStartEdge := by
  intro a s t h
  have hinit : s.inited = false := by
    by_contra hne
    rw [secondInitIsRefused a s (by simpa using hne)] at h
    cases h
  rw [exec_init_of_not_inited hinit] at h
  cases h
  have hmode := s.payload_ne_nil .mode
  have hdata := s.payload_ne_nil .data
  have hctrl := s.payload_ne_nil .ctrl
  refine ⟨txnEvents (s.payload .mode) ++ txnEvents (s.payload .data) ++ txnEvents (s.payload .ctrl), ?trace, ?edges, ?rises⟩
  case trace => simp [State.refresh_trace]
  case edges =>
    simp only [dataChangesWhileHigh_append, List.foldl_append, clock_txnEvents, data_txnEvents,
      dataChangesWhileHigh_txnEvents_low hmode, dataChangesWhileHigh_txnEvents hdata, dataChangesWhileHigh_txnEvents hctrl]
    rfl
  case rises =>
    simp only [clockRises_append, List.foldl_append, clock_txnEvents, clockRises_txnEvents_low hmode, clockRises_txnEvents hdata,
      clockRises_txnEvents hctrl]
    simp only [State.payload, List.length_cons, List.length_nil, State.cells_length]
    omega

/-! ### The frame view is read off the events (42_protocol_driver.md R96) -/

theorem cellEvents_injective : Function.Injective cellEvents := by decide

/-- The cells of a shift register tell its bits. -/
theorem getLsbD_eq_of_shiftOut {k : Nat} {x y : Byte} (h : shiftOut k x = shiftOut k y) {i : Nat} (hi : i < k) :
    x.getLsbD i = y.getLsbD i := by
  induction k generalizing x y i with
  | zero => omega
  | succ k ih =>
    obtain ⟨hcell, htail⟩ := List.append_inj h rfl
    cases i with
    | zero => exact cellEvents_injective hcell
    | succ i =>
      rw [← getLsbD_shifted, ← getLsbD_shifted]
      exact ih htail (by omega)

theorem sendByteEvents_injective {x y : Byte} (h : sendByteEvents x = sendByteEvents y) : x = y := by
  have hshift := List.append_cancel_right h
  exact BitVec.eq_of_getLsbD_eq fun i hi => getLsbD_eq_of_shiftOut hshift hi

/-- A byte transfer begins with CLOCK driven Low and STOP with DATA. -/
theorem bytesEvents_cons_append_ne_stop (b : Byte) (bs : List Byte) (es fs : List WireEvent) :
    bytesEvents (b :: bs) ++ es ≠ stopEvents ++ fs := nofun

/-- The events behind START tell the bytes and where STOP begins. -/
theorem bytesEvents_stop_inj {bs cs : List Byte} {es fs : List WireEvent}
    (h : bytesEvents bs ++ (stopEvents ++ es) = bytesEvents cs ++ (stopEvents ++ fs)) : bs = cs ∧ es = fs := by
  induction bs generalizing cs with
  | nil =>
    cases cs with
    | nil => exact ⟨rfl, List.append_cancel_left h⟩
    | cons c cs => exact absurd h.symm (bytesEvents_cons_append_ne_stop c cs _ _)
  | cons b bs ih =>
    cases cs with
    | nil => exact absurd h (bytesEvents_cons_append_ne_stop b bs _ _)
    | cons c cs =>
      rw [bytesEvents, bytesEvents, List.append_assoc, List.append_assoc] at h
      obtain ⟨hbyte, htail⟩ := List.append_inj h (by simp)
      obtain ⟨rfl, hes⟩ := ih htail
      exact ⟨by rw [sendByteEvents_injective hbyte], hes⟩

theorem txnEvents_append_inj {f g : List Byte} {es fs : List WireEvent} (h : txnEvents f ++ es = txnEvents g ++ fs) :
    f = g ∧ es = fs := by
  simp only [txnEvents, List.append_assoc] at h
  exact bytesEvents_stop_inj (List.append_cancel_left h)

/-- Settles O38: frame by frame, each transaction's events tell its bytes and where it ends. -/
theorem eventsDetermineTheFrames : Obligations.EventsDetermineTheFrames := by
  intro fs
  induction fs with
  | nil =>
    rintro (_ | ⟨g, gs⟩) h
    · rfl
    · simp [framesEvents, txnEvents, startEvents] at h
  | cons f fs ih =>
    rintro (_ | ⟨g, gs⟩) h
    · simp [framesEvents, txnEvents, startEvents] at h
    · simp only [framesEvents, List.flatMap_cons] at h
      obtain ⟨rfl, hrest⟩ := txnEvents_append_inj h
      rw [ih gs hrest]

end Sys2Proof.Machine

namespace Sys2Proof.Machine

/-! ### Runs of instructions -/

theorem runInstrs_append_of_next {is : List Instr} {s t : State} (h : runInstrs is s = .next t) (js : List Instr) :
    runInstrs (is ++ js) s = runInstrs js t := by
  induction is generalizing s with
  | nil => cases h; rfl
  | cons i is ih =>
    simp only [List.cons_append, runInstrs] at h ⊢
    split at h
    · exact ih h
    · cases h
    · cases h

/-! ### A text without points that fits (41_text_formatter.md R78) -/

/-- What PUTC of a code that is not the point's writes is what ENCODE gives. -/
theorem State.characterByte_putc {c : Byte} (h : c ≠ pointCode) (s : State) :
    s.characterByte (.putc c) = (encodeChar c).zeroExtend 8 := by
  cases hc : charClass c with
  | point => exact absurd hc (charClass_ne_point h)
  | glyph =>
    rw [State.characterByte_of_glyphCode (c := c) (by simp [Instr.glyphCode, hc]), encodeChar_of_glyph hc]
    rfl
  | blank =>
    rw [State.characterByte_of_isBlank (by simp [Instr.isBlank, hc]), encodeChar_of_blank hc]
    rfl

theorem isPoint_putc {c : Byte} (h : c ≠ pointCode) : (Instr.putc c).isPoint = false := by
  simpa [Instr.isPoint] using h

/-- The state `t` is `s` with a text printed from its cursor on, one cell a character. -/
structure Printed (s : State) (text : List Byte) (t : State) : Prop where
  cell : ∀ j (h : j < text.length), t.cell (s.cursor.toNat + j) = (encodeChar text[j]).zeroExtend 8
  other : ∀ k, k < s.cursor.toNat ∨ s.cursor.toNat + text.length ≤ k → t.cell k = s.cell k
  cursor : t.cursor.toNat = s.cursor.toNat + text.length
  frame : t = { s with fb := t.fb, cursor := t.cursor }

theorem Printed.cell_first {s t : State} {c : Byte} {text : List Byte} (h : Printed s (c :: text) t) :
    t.cell s.cursor.toNat = (encodeChar c).zeroExtend 8 :=
  h.cell 0 (Nat.succ_pos _)

theorem Printed.nil (s : State) : Printed s [] s :=
  ⟨nofun, fun _ _ => rfl, rfl, rfl⟩

/-- PUTC at an existing cursor cell prints its one character. -/
theorem exec_putc_printed {c : Byte} {s : State} (hc : c ≠ pointCode) (hf : FbOk s) (h : s.inited = true) (ho : s.ovf = false)
    (hlt : s.cursor.toNat < s.size) : ∃ t, exec (.putc c) s = .next t ∧ FbOk t ∧ Printed s [c] t := by
  have hcell := s.characterCell_of_not_isPoint (isPoint_putc hc)
  obtain ⟨t, hexec, hbyte, hother, hcursor, hframe⟩ := exec_character_wrote (i := .putc c) rfl hf h ho (hcell ▸ hlt)
  rw [hcell] at hbyte hother hcursor
  rw [s.characterByte_putc hc] at hbyte
  refine ⟨t, hexec, hf.execStep (exec_step hexec), fun j hj => ?_, fun k hk => hother k ?_, hcursor, hframe⟩
  · obtain rfl : j = 0 := by simpa using hj
    exact hbyte
  · simp only [List.length_singleton] at hk
    omega

/-- A text is printed by printing its first character and then the others. -/
theorem Printed.cons {s u t : State} {c : Byte} {text : List Byte} (hu : Printed s [c] u) (ht : Printed u text t) :
    Printed s (c :: text) t := by
  have hcursor : u.cursor.toNat = s.cursor.toNat + 1 := hu.cursor
  refine ⟨fun j hj => ?_, fun k hk => ?_, ?_, ?_⟩
  · cases j with
    | zero => rw [ht.other _ (.inl (by omega))]; exact hu.cell_first
    | succ j =>
      rw [show s.cursor.toNat + (j + 1) = u.cursor.toNat + j by omega]
      exact ht.cell j (Nat.lt_of_succ_lt_succ hj)
  · simp only [List.length_cons] at hk
    rw [ht.other k (by omega), hu.other k (by simp only [List.length_singleton]; omega)]
  · rw [ht.cursor, hcursor, List.length_cons]
    omega
  · rw [ht.frame, hu.frame]

theorem runInstrs_putc_printed {text : List Byte} {s : State} (hp : pointCode ∉ text) (hf : FbOk s) (h : s.inited = true)
    (ho : s.ovf = false) (hfit : s.cursor.toNat + text.length ≤ s.size) :
    ∃ t, runInstrs (text.map .putc) s = .next t ∧ Printed s text t := by
  induction text generalizing s with
  | nil => exact ⟨s, rfl, Printed.nil s⟩
  | cons c text ih =>
    obtain ⟨hc, hp⟩ := List.ne_and_not_mem_of_not_mem_cons hp
    rw [List.length_cons] at hfit
    obtain ⟨u, hexec, hfu, hu⟩ := exec_putc_printed (Ne.symm hc) hf h ho (by omega)
    have hcursor : u.cursor.toNat = s.cursor.toNat + 1 := hu.cursor
    have hsize : u.size = s.size := by rw [hu.frame]; rfl
    obtain ⟨t, hrun, ht⟩ := ih hp hfu (by rw [hu.frame]; exact h) (by rw [hu.frame]; exact ho) (by omega)
    exact ⟨t, (runInstrs_cons_of_next hexec _).trans hrun, hu.cons ht⟩

/-- PRINT of the part of a text that fits, from the state PBEGIN leaves. -/
theorem runInstrs_printOps_printed {text : List Byte} {s : State} {p : Pos} (h : s.inited = true) (hf : FbOk s)
    (hp : pointCode ∉ text) (hfit : p.toNat + text.length ≤ s.size) :
    ∃ t, runInstrs (printOps p text) s = .next t ∧ Printed (s.loadPrint p).returnFromOverflow text t := by
  obtain ⟨t, hrun, ht⟩ := runInstrs_putc_printed (s := (s.loadPrint p).returnFromOverflow) hp hf h rfl hfit
  exact ⟨t, (runInstrs_cons_of_next (exec_pbegin_of_inited h p) _).trans hrun, ht⟩

/-- Settles O27: the text is printed from the position PBEGIN has loaded into `start` and `cursor`. -/
theorem printOfFittingTextWritesOneCellPerCharacter : Obligations.PrintOfFittingTextWritesOneCellPerCharacter := by
  intro s p text h hf hp hfit
  obtain ⟨t, hrun, ht⟩ := runInstrs_printOps_printed h hf hp hfit
  have hcursor : t.cursor.toNat = p.toNat + text.length := ht.cursor
  have hstart : t.start = p := by rw [ht.frame]; rfl
  have hret : t.ret.toNat = text.length := by
    rw [State.ret_toNat (by rw [hstart]; omega), hstart]
    omega
  exact ⟨t, hrun, ht.cell, ht.other, hret, by rw [ht.frame]; rfl, ht.frame⟩

/-! ### A text without points that does not fit (41_text_formatter.md R78, 60_exceptions.md R110) -/

theorem runInstrs_putc_of_ovf {s : State} (h : s.inited = true) (ho : s.ovf = true) (text : List Byte) :
    runInstrs (text.map .putc) s = .next s := by
  induction text with
  | nil => rfl
  | cons c text ih => exact (runInstrs_cons_of_next (charactersAreIgnoredAfterOverflow (.putc c) s rfl h ho) _).trans ih

/-- At the end of the display the first character overflows and the others are ignored. -/
theorem runInstrs_putc_overflows {text : List Byte} {s : State} (hne : text ≠ []) (hp : pointCode ∉ text) (h : s.inited = true)
    (ho : s.ovf = false) (hend : s.size ≤ s.cursor.toNat) : runInstrs (text.map .putc) s = .next s.raiseOverflow := by
  cases text with
  | nil => contradiction
  | cons c text =>
    obtain ⟨hc, _⟩ := List.ne_and_not_mem_of_not_mem_cons hp
    have hover : exec (.putc c) s = .next s.raiseOverflow :=
      overflowSetsTheFlagOnly (.putc c) s rfl h ho (.inl ⟨isPoint_putc (Ne.symm hc), hend⟩)
    exact (runInstrs_cons_of_next hover _).trans (runInstrs_putc_of_ovf (by exact h) rfl text)

/-- Settles O28: the characters that fit are printed, the next one overflows, and the rest is ignored. -/
theorem printOfOverlongTextIsTruncated : Obligations.PrintOfOverlongTextIsTruncated := by
  intro s p text h hf hp hpos hlong
  have hlen : (text.take (s.size - p.toNat)).length = s.size - p.toNat := by
    rw [List.length_take]
    omega
  obtain ⟨t, hrun, ht⟩ := runInstrs_printOps_printed (text := text.take (s.size - p.toNat)) (p := p) h hf
    (fun hm => hp (List.mem_of_mem_take hm)) (by omega)
  have hcursor : t.cursor.toNat = s.size := by
    have : t.cursor.toNat = p.toNat + (text.take (s.size - p.toNat)).length := ht.cursor
    omega
  have hstart : t.start = p := by rw [ht.frame]; rfl
  have hsize : t.size = s.size := by rw [ht.frame]; rfl
  have hrest : text.drop (s.size - p.toNat) ≠ [] := by
    rw [Ne, List.drop_eq_nil_iff]
    omega
  have hsplit : printOps p text =
      printOps p (text.take (s.size - p.toNat)) ++ (text.drop (s.size - p.toNat)).map .putc := by
    rw [printOps, printOps, List.cons_append, ← List.map_append, List.take_append_drop]
  have hover : runInstrs (printOps p text) s = .next t.raiseOverflow := by
    rw [hsplit, runInstrs_append_of_next hrun]
    exact runInstrs_putc_overflows hrest (fun hm => hp (List.mem_of_mem_drop hm)) (by rw [ht.frame]; exact h)
      (by rw [ht.frame]; rfl) (by omega)
  refine ⟨t.raiseOverflow, hover, fun j hj hlt => ?_, fun k hk => ht.other k ?_, ?_, rfl, ?_⟩
  · have hcell := ht.cell j (by omega)
    rwa [List.getElem_take] at hcell
  · have : (s.loadPrint p).returnFromOverflow.cursor = p := rfl
    rw [this]
    omega
  · have hret : t.raiseOverflow.ret = t.ret := rfl
    rw [hret, State.ret_toNat (by rw [hstart]; omega), hstart, hcursor]
  · rw [ht.frame]
    rfl

/-! ### A point behind a character (41_text_formatter.md R77) -/

/-- After a printed character of a print operation the point ORs its bit into that character's cell and leaves the cursor. -/
theorem exec_point_after_character {c : Byte} {s u : State} (hu : Printed s [c] u) (hf : FbOk u) (h : u.inited = true)
    (ho : u.ovf = false) (hstart : s.start.toNat ≤ s.cursor.toNat) (hlt : s.cursor.toNat < s.size) :
    ∃ v, exec (.putc pointCode) u = .next v ∧ FbOk v ∧ v.cell s.cursor.toNat = (encodeChar c).zeroExtend 8 ||| 0x80#8 ∧
      (∀ k, k ≠ s.cursor.toNat → v.cell k = s.cell k) ∧ v.cursor.toNat = s.cursor.toNat + 1 ∧
      v = { s with fb := v.fb, cursor := v.cursor } := by
  have hsize : u.size = s.size := by rw [hu.frame]; rfl
  have hustart : u.start = s.start := by rw [hu.frame]
  have hcell : u.characterCell (.putc pointCode) = s.cursor.toNat :=
    (u.characterCell_of_isPoint rfl).trans (u.pointTarget_of_cursor hu.cursor (hustart ▸ hstart))
  obtain ⟨v, hexec, hbyte, hother, hcursor, hframe⟩ := exec_character_wrote (i := .putc pointCode) rfl hf h ho (by omega)
  rw [u.characterByte_of_isPoint rfl, hcell] at hbyte
  rw [hcell] at hother hcursor
  refine ⟨v, hexec, hf.execStep (exec_step hexec), ?_, fun k hk => ?_, hcursor, ?_⟩
  · rw [hbyte, hu.cell_first]
    rfl
  · rw [hother k hk, hu.other k (by simp only [List.length_singleton]; omega)]
  · rw [hframe, hu.frame]

/-- Settles O29: the point is processed at the cell of the character before it, so the next character is printed behind that
cell. -/
theorem pointSharesTheCellBeforeIt : Obligations.PointSharesTheCellBeforeIt := by
  intro s p c d h hf hc hd hfit
  have hbegin := runInstrs_cons_of_next (exec_pbegin_of_inited h p) ([c, pointCode, d].map .putc)
  obtain ⟨u, hexecu, hfu, hu⟩ := exec_putc_printed (s := (s.loadPrint p).returnFromOverflow) hc hf h rfl
    (show p.toNat < s.size by omega)
  obtain ⟨v, hexecv, hfv, hcell, hother, hcursor, hframe⟩ := exec_point_after_character hu hfu (by rw [hu.frame]; exact h)
    (by rw [hu.frame]; rfl) (le_refl p.toNat) (show p.toNat < s.size by omega)
  have hvcursor : v.cursor.toNat = p.toNat + 1 := hcursor
  have hvsize : v.size = s.size := by rw [hframe]; rfl
  obtain ⟨t, hexect, _, ht⟩ := exec_putc_printed hd hfv (by rw [hframe]; exact h) (by rw [hframe]; rfl) (by omega)
  have hrun : runInstrs ([c, pointCode, d].map .putc) (s.loadPrint p).returnFromOverflow = .next t := by
    rw [List.map, runInstrs_cons_of_next hexecu, List.map, runInstrs_cons_of_next hexecv, List.map, runInstrs_cons_of_next hexect]
    rfl
  have htcursor : t.cursor.toNat = p.toNat + 2 := by
    rw [ht.cursor, hvcursor]
    rfl
  have hstart : t.start = p := by
    rw [ht.frame, hframe]
    rfl
  refine ⟨t, hbegin.trans hrun, ?_, ?_, fun k hk hk' => ?_, ?_, ?_⟩
  · rw [ht.other _ (.inl (by omega))]
    exact hcell
  · rw [← hvcursor]
    exact ht.cell_first
  · rw [ht.other k (by simp only [List.length_singleton]; omega)]
    exact hother k hk
  · rw [State.ret_toNat (by rw [hstart]; omega), hstart]
    omega
  · rw [ht.frame, hframe]
    rfl

/-! ### Two TICKs with one body (43_refresh_orchestration.md R106) -/

/-- The state PRINT leaves after setup. -/
def State.afterPrint (s : State) (x : Pos × List Byte) : State :=
  x.2.foldl (fun u c => u.afterCharacter (.putc c)) (s.loadPrint x.1).returnFromOverflow

/-- The state a list of PRINTs leaves after setup. -/
def State.afterPrints (s : State) (xs : List (Pos × List Byte)) : State := xs.foldl State.afterPrint s

/-- The two states differ in the registers of the Text Formatter only. -/
def TextFrame (s t : State) : Prop := t = { s with fb := t.fb, start := t.start, cursor := t.cursor, ovf := t.ovf }

theorem TextFrame.trans {s t u : State} (h : TextFrame s t) (g : TextFrame t u) : TextFrame s u := by
  rw [TextFrame, g, h]

theorem State.afterCharacter_textFrame (s : State) (i : Instr) : TextFrame s (s.afterCharacter i) := by
  unfold State.afterCharacter
  split
  · rfl
  · split <;> rfl

theorem State.afterPrint_textFrame (s : State) (x : Pos × List Byte) : TextFrame s (s.afterPrint x) := by
  have htext (text : List Byte) (u : State) : TextFrame u (text.foldl (fun u c => u.afterCharacter (.putc c)) u) := by
    induction text generalizing u with
    | nil => rfl
    | cons c text ih => exact (u.afterCharacter_textFrame (.putc c)).trans (ih _)
  exact TextFrame.trans (t := (s.loadPrint x.1).returnFromOverflow) rfl (htext x.2 _)

theorem State.afterPrints_textFrame (s : State) (xs : List (Pos × List Byte)) : TextFrame s (s.afterPrints xs) := by
  induction xs generalizing s with
  | nil => rfl
  | cons x xs ih => exact (s.afterPrint_textFrame x).trans (ih _)

theorem TextFrame.inited {s t : State} (h : TextFrame s t) : t.inited = s.inited := by rw [h]

theorem runInstrs_putc {s : State} (h : s.inited = true) (text : List Byte) :
    runInstrs (text.map .putc) s = .next (text.foldl (fun u c => u.afterCharacter (.putc c)) s) := by
  induction text generalizing s with
  | nil => rfl
  | cons c text ih =>
    exact (runInstrs_cons_of_next (exec_character_of_inited rfl h) _).trans
      (ih ((s.afterCharacter_textFrame (.putc c)).inited.trans h))

theorem runInstrs_printOps {s : State} (h : s.inited = true) (x : Pos × List Byte) :
    runInstrs (printOps x.1 x.2) s = .next (s.afterPrint x) :=
  (runInstrs_cons_of_next (exec_pbegin_of_inited h x.1) _).trans (runInstrs_putc (by exact h) x.2)

theorem runInstrs_prints {s : State} (h : s.inited = true) (xs : List (Pos × List Byte)) :
    runInstrs (xs.flatMap fun x => printOps x.1 x.2) s = .next (s.afterPrints xs) := by
  induction xs generalizing s with
  | nil => rfl
  | cons x xs ih =>
    rw [List.flatMap_cons, runInstrs_append_of_next (runInstrs_printOps h x)]
    exact ih ((s.afterPrint_textFrame x).inited.trans h)

/-- After setup a TICK with a body of PRINTs is CLEAR, the PRINTs and a refresh cycle. -/
theorem runInstrs_tickOps {s : State} (h : s.inited = true) (xs : List (Pos × List Byte)) :
    runInstrs (tickOps (xs.flatMap fun x => printOps x.1 x.2)) s = .next (s.clearCells.afterPrints xs).refresh := by
  have hclear : s.clearCells.inited = true := h
  have hbody := runInstrs_prints hclear xs
  have hinit : (s.clearCells.afterPrints xs).inited = true := (s.clearCells.afterPrints_textFrame xs).inited.trans hclear
  rw [tickOps, runInstrs_cons_of_next (exec_clear_of_inited h _), runInstrs_append_of_next hbody,
    runInstrs_cons_of_next (exec_display_of_inited hinit _)]
  rfl

/-- What a character reads of the state is equal. -/
structure SameText (s t : State) : Prop where
  fb : s.fb = t.fb
  start : s.start = t.start
  cursor : s.cursor = t.cursor
  ovf : s.ovf = t.ovf
  params : s.params = t.params

theorem SameText.afterCharacter {s t : State} (h : SameText s t) (i : Instr) :
    SameText (s.afterCharacter i) (t.afterCharacter i) := by
  obtain ⟨hfb, hstart, hcursor, hovf, hparams⟩ := h
  have hcell : s.characterCell i = t.characterCell i := by
    simp only [State.characterCell, State.pointTarget_eq, State.cursorIndex, hstart, hcursor]
  have hbyte : s.characterByte i = t.characterByte i := by
    simp only [State.characterByte, State.pointTarget_eq, State.cell, hfb, hstart, hcursor]
  have hsize : s.size = t.size := by rw [State.size, hparams, State.size]
  unfold State.afterCharacter
  rw [hovf, hsize, hcell, hbyte]
  split
  · exact ⟨hfb, hstart, hcursor, hovf, hparams⟩
  · split
    · exact ⟨hfb, hstart, hcursor, rfl, hparams⟩
    · exact ⟨congrArg (Memory.write · _ _) hfb, hstart, rfl, hovf, hparams⟩

/-- PBEGIN loads what a character reads beside the cells, so the cells after PRINT depend on the cells before it only. -/
theorem State.afterPrint_fb {s t : State} (hfb : s.fb = t.fb) (hp : s.params = t.params) (x : Pos × List Byte) :
    (s.afterPrint x).fb = (t.afterPrint x).fb := by
  have htext (text : List Byte) {u v : State} (h : SameText u v) :
      SameText (text.foldl (fun u c => u.afterCharacter (.putc c)) u) (text.foldl (fun u c => u.afterCharacter (.putc c)) v) := by
    induction text generalizing u v with
    | nil => exact h
    | cons c text ih => exact ih (h.afterCharacter (.putc c))
  exact (htext x.2 (u := (s.loadPrint x.1).returnFromOverflow) (v := (t.loadPrint x.1).returnFromOverflow)
    ⟨hfb, rfl, rfl, rfl, hp⟩).fb

theorem TextFrame.params {s t : State} (h : TextFrame s t) : t.params = s.params := by rw [h]

theorem State.afterPrints_fb {s t : State} (hfb : s.fb = t.fb) (hp : s.params = t.params) (xs : List (Pos × List Byte)) :
    (s.afterPrints xs).fb = (t.afterPrints xs).fb := by
  induction xs generalizing s t with
  | nil => exact hfb
  | cons x xs ih =>
    refine ih (State.afterPrint_fb hfb hp x) ?_
    rw [(s.afterPrint_textFrame x).params, (t.afterPrint_textFrame x).params, hp]

theorem TextFrame.intensity {s t : State} (h : TextFrame s t) : t.intensity = s.intensity := by rw [h]

theorem TextFrame.frames {s t : State} (h : TextFrame s t) : t.frames = s.frames := by rw [h]

/-- After CLEAR a body of PRINTs leaves the same cells and the same payloads in every state of one block. -/
theorem State.clearCells_afterPrints_congr {s t : State} (hp : s.params = t.params) (hi : s.intensity = t.intensity)
    (xs : List (Pos × List Byte)) : (s.clearCells.afterPrints xs).fb = (t.clearCells.afterPrints xs).fb ∧
      (s.clearCells.afterPrints xs).payload = (t.clearCells.afterPrints xs).payload := by
  have hs := s.clearCells.afterPrints_textFrame xs
  have ht := t.clearCells.afterPrints_textFrame xs
  have hfb := State.afterPrints_fb (s := s.clearCells) (t := t.clearCells) rfl hp xs
  refine ⟨hfb, State.payload_congr hfb ?_ ?_⟩
  · rw [hs.params, ht.params]
    exact hp
  · rw [hs.intensity, ht.intensity]
    exact hi

/-- A TICK with a body of PRINTs keeps what makes the block, and appends the three frames of the cells its body leaves. -/
theorem State.tick_frame (s : State) (xs : List (Pos × List Byte)) :
    (s.clearCells.afterPrints xs).refresh.inited = s.inited ∧ (s.clearCells.afterPrints xs).refresh.params = s.params ∧
    (s.clearCells.afterPrints xs).refresh.intensity = s.intensity ∧
    (s.clearCells.afterPrints xs).refresh.frames =
      s.frames ++ [.mode, .data, .ctrl].map (s.clearCells.afterPrints xs).payload := by
  have hs := s.clearCells.afterPrints_textFrame xs
  rw [State.refresh_inited, State.refresh_params, State.refresh_intensity, State.refresh_frames, hs.inited, hs.params,
    hs.intensity, hs.frames]
  simp

/-- Settles O41: CLEAR makes the cells of the two TICKs equal, and what the first TICK changes beside the cells neither a body of
PRINTs nor a refresh cycle reads. -/
theorem sameTickBodySendsTheSameFrames : Obligations.SameTickBodySendsTheSameFrames := by
  intro s xs h
  obtain ⟨hinit, hparams, hintensity, hframes⟩ := s.tick_frame xs
  obtain ⟨hfb, hpayload⟩ := State.clearCells_afterPrints_congr hparams hintensity xs
  obtain ⟨_, _, _, hframes'⟩ := (s.clearCells.afterPrints xs).refresh.tick_frame xs
  refine ⟨_, _, [.mode, .data, .ctrl].map (s.clearCells.afterPrints xs).payload, runInstrs_tickOps h xs,
    runInstrs_tickOps (hinit.trans h) xs, ?_, hframes, ?_, rfl⟩
  · rw [State.refresh_fb, hfb, State.refresh_fb]
  · rw [hframes', hpayload]

end Sys2Proof.Machine

namespace Sys2Proof.Machine

/-! ### The phases of the serializer (42_protocol_driver.md R84 to R86, 70_reset_and_hazards.md R142) -/

/-- What follows a phase that is over: the next one is entered, or the operation finishes. -/
def State.goOn (s : State) : Option SeqPos → State
  | some q => s.enterPhase q
  | none => s.finish

theorem State.advance_eq (s : State) (p : SeqPos) : s.advance p = (s.leavePhase p).goOn (s.seqAfter p) := by
  unfold State.advance State.goOn
  split <;> simp [*]

/-- The state behind a phase and its wait, with `seq` as it was before: what follows does not read it. -/
def State.throughPhase (s : State) (q : SeqPos) : State := ({ s.enterPhase q with seq := s.seq, dly := 0 } : State).leavePhase q

/-- `n` phases of the clocked form, the first of which is `q`, entered in state `s`, lead to state `t`, from which `r` follows. -/
def Phases (n : Nat) (s : State) (q : SeqPos) (t : State) (r : Option SeqPos) : Prop :=
  Host.Core.run core (n * s.params.tCycles) (s.enterPhase q) = .next (t.goOn r)

theorem Phases.trans {m n : Nat} {s t u : State} {q r : SeqPos} {x : Option SeqPos} (h : Phases m s q t (some r))
    (hp : t.params = s.params) (g : Phases n t r u x) : Phases (m + n) s q u x := by
  unfold Phases at *
  rw [Nat.add_mul, run_add _ _ _ _ h, ← hp]
  exact g

/-- A serializer at work: `busy`, no reset, and waits of at least one clock period. -/
structure Serializing (s : State) : Prop where
  rst : s.rst = false
  busy : s.busy = true
  wait : 1 ≤ s.params.tCycles

theorem State.goOn_with_seq (s : State) (x r : Option SeqPos) : ({ s with seq := x } : State).goOn r = s.goOn r := by
  cases r <;> rfl

theorem State.leavePhase_with_seq (s : State) (x : Option SeqPos) (p : SeqPos) :
    ({ s with seq := x } : State).leavePhase p = { s.leavePhase p with seq := x } := by
  unfold State.leavePhase
  split <;> rfl

/-- One phase is `T_CYCLES` clock edges. -/
theorem Serializing.phase {s : State} (h : Serializing s) (q : SeqPos) :
    Phases 1 s q (s.throughPhase q) ((s.enterPhase q).seqAfter q) := by
  obtain ⟨hr, hb, hw⟩ := h
  have hrun := run_wait (s := s.enterPhase q) (p := q) hr hb rfl
  have hdly : (s.enterPhase q).dly + 1 = s.params.tCycles := Nat.sub_add_cancel hw
  have hthrough : s.throughPhase q = { ({ s.enterPhase q with dly := 0 } : State).leavePhase q with seq := s.seq } :=
    State.leavePhase_with_seq { s.enterPhase q with dly := 0 } s.seq q
  rw [hdly, State.advance_eq] at hrun
  rw [Phases, Nat.one_mul, hrun, hthrough, State.goOn_with_seq]
  rfl

/-! ### What the phases of START, a bit cell, the settle delay and STOP do -/

/-- `s` with events sent and the serializer's registers where they leave them. -/
def State.sent (s : State) (es : List WireEvent) (sh : Byte) (bit : BitVec 3) : State :=
  { s.emit es with sh := sh, bitcnt := bit, dly := 0 }

theorem State.sent_sent (s : State) (es fs : List WireEvent) (x y : Byte) (a b : BitVec 3) :
    (s.sent es x a).sent fs y b = s.sent (es ++ fs) y b := by
  simp only [State.sent, State.emit, List.append_assoc, List.foldl_append]

theorem Serializing.sent {s : State} (h : Serializing s) (es : List WireEvent) (sh : Byte) (bit : BitVec 3) :
    Serializing (s.sent es sh bit) :=
  ⟨h.rst, h.busy, h.wait⟩

/-- The byte whose lowest bit the next cell sends: a fresh one where a byte begins, else what is left of the last. -/
def State.cellByte (s : State) (t : Txn) (k : Nat) : Byte := if s.bitcnt = 0#3 then s.byteAt ⟨t, k, .b0⟩ else s.sh

section
variable (s : State) (t : Txn) (k : Nat)

theorem State.throughPhase_start0 : s.throughPhase ⟨t, k, .start0⟩ = s.sent startEvents s.sh 0#3 := rfl

theorem State.throughPhase_b0 : s.throughPhase ⟨t, k, .b0⟩ = s.sent [.c0, .w] (s.cellByte t k) s.bitcnt := by
  by_cases h : s.bitcnt = 0#3 <;>
    simp [State.throughPhase, State.leavePhase, State.enterPhase, State.sent, State.cellByte, State.loadsByte, phaseEvents, h]

theorem State.throughPhase_b1 : s.throughPhase ⟨t, k, .b1⟩ = s.sent [dataEvent (dataBit s.sh), .w] s.sh s.bitcnt := rfl

theorem State.throughPhase_b2 : s.throughPhase ⟨t, k, .b2⟩ = s.sent [.c1, .w] s.sh s.bitcnt := rfl

theorem State.throughPhase_b3 : s.throughPhase ⟨t, k, .b3⟩ = s.sent [.c0, .w] (shifted s.sh) (s.bitcnt + 1#3) := rfl

theorem State.throughPhase_settle : s.throughPhase ⟨t, k, .settle⟩ = s.sent [.w] s.sh s.bitcnt := rfl

theorem State.throughPhase_stop0 : s.throughPhase ⟨t, k, .stop0⟩ = s.sent [.d0, .w] s.sh s.bitcnt := rfl

theorem State.throughPhase_stop1 : s.throughPhase ⟨t, k, .stop1⟩ = s.sent [.c1, .w] s.sh s.bitcnt := rfl

theorem State.throughPhase_stop2 : s.throughPhase ⟨t, k, .stop2⟩ =
    { s.sent [.d1, .w] s.sh s.bitcnt with frames := s.frames ++ [s.payload t] } := by
  cases t <;> rfl

end

section
variable {s : State} (h : Serializing s) (t : Txn) (k : Nat)
include h

/-- A bit cell is four phases (30_encoding.md R56). -/
theorem Serializing.cell :
    Phases 4 s ⟨t, k, .b0⟩
      (s.sent (cellEvents (dataBit (s.cellByte t k))) (shifted (s.cellByte t k)) (s.bitcnt + 1#3))
      (some (if s.bitcnt = 7#3 then ⟨t, k, .settle⟩ else ⟨t, k, .b0⟩)) := by
  have h0 := h.phase ⟨t, k, .b0⟩
  rw [State.throughPhase_b0] at h0
  have h1 := h0.trans rfl ((h.sent _ _ _).phase ⟨t, k, .b1⟩)
  rw [State.throughPhase_b1, State.sent_sent] at h1
  have h2 := h1.trans rfl ((h.sent _ _ _).phase ⟨t, k, .b2⟩)
  rw [State.throughPhase_b2, State.sent_sent] at h2
  have h3 := h2.trans rfl ((h.sent _ _ _).phase ⟨t, k, .b3⟩)
  rw [State.throughPhase_b3, State.sent_sent] at h3
  have hafter : (s.sent [] 0#8 s.bitcnt).seqAfter ⟨t, k, .b3⟩ =
      some (if s.bitcnt = 7#3 then ⟨t, k, .settle⟩ else ⟨t, k, .b0⟩) := (apply_ite some _ _ _).symm
  rw [← hafter]
  exact h3

/-- The cells that are left of a byte when bit `7 - n` is next. -/
theorem Serializing.cells (n : Nat) (hn : s.bitcnt.toNat + n = 7) :
    Phases (4 * (n + 1)) s ⟨t, k, .b0⟩
      (s.sent (shiftOut (n + 1) (s.cellByte t k)) (shifted^[n + 1] (s.cellByte t k)) 0#3) (some ⟨t, k, .settle⟩) := by
  induction n generalizing s with
  | zero =>
    have hcell := h.cell t k
    have hbit : s.bitcnt = 7#3 := BitVec.eq_of_toNat_eq hn
    rw [hbit] at hcell
    simpa [shiftOut] using hcell
  | succ n ih =>
    have hnext : (s.bitcnt + 1#3).toNat = s.bitcnt.toNat + 1 := by
      rw [BitVec.toNat_add]
      exact Nat.mod_eq_of_lt (by simp; omega)
    have hlast : s.bitcnt ≠ 7#3 := by
      intro h7
      rw [h7] at hn
      simp at hn
    have hne : s.bitcnt + 1#3 ≠ 0#3 := by
      intro h0
      rw [h0] at hnext
      simp at hnext
    have hcell := h.cell t k
    rw [if_neg hlast] at hcell
    have hrest := hcell.trans rfl (ih (h.sent _ _ _) (show (s.bitcnt + 1#3).toNat + n = 7 by omega))
    have hbyte (es : List WireEvent) (x : Byte) : (s.sent es x (s.bitcnt + 1#3)).cellByte t k = x := if_neg hne
    rw [hbyte, State.sent_sent, ← Function.iterate_succ_apply] at hrest
    rw [show 4 * (n + 1 + 1) = 4 + 4 * (n + 1) by omega]
    exact hrest

/-- A byte transfer is 33 phases (42_protocol_driver.md R86, R88). -/
theorem Serializing.byte (hbit : s.bitcnt = 0#3) :
    Phases 33 s ⟨t, k, .b0⟩ (s.sent (sendByteEvents (s.byteAt ⟨t, k, .b0⟩)) 0#8 0#3)
      (some (if k < s.lastByte t then ⟨t, k + 1, .b0⟩ else ⟨t, k, .stop0⟩)) := by
  have hcells := h.cells t k 7 (by rw [hbit]; rfl)
  have hbyte : s.cellByte t k = s.byteAt ⟨t, k, .b0⟩ := if_pos hbit
  have hend (b : Byte) : shifted^[7 + 1] b = 0#8 := by rw [iterate_shifted, BitVec.ushiftRight_eq_zero (le_refl 8)]
  rw [hbyte, hend] at hcells
  have hsettle := hcells.trans rfl ((h.sent _ _ _).phase ⟨t, k, .settle⟩)
  rw [State.throughPhase_settle, State.sent_sent] at hsettle
  have hafter : s.seqAfter ⟨t, k, .settle⟩ = some (if k < s.lastByte t then ⟨t, k + 1, .b0⟩ else ⟨t, k, .stop0⟩) :=
    (apply_ite some _ _ _).symm
  rw [← hafter]
  exact hsettle

end

/-- The last byte of a transaction is the last of its payload. -/
theorem State.payload_length (s : State) (t : Txn) : (s.payload t).length = s.lastByte t + 1 := by
  cases t <;> simp [State.payload, State.lastByte]

theorem State.payload_drop {s : State} {t : Txn} {k : Nat} (h : k ≤ s.lastByte t) :
    (s.payload t).drop k = s.byteAt ⟨t, k, .b0⟩ :: (s.payload t).drop (k + 1) := by
  have hk : k < (s.payload t).length := by
    rw [State.payload_length]
    omega
  rw [List.drop_eq_getElem_cons hk, State.byteAt, List.getD_eq_getElem _ _ hk]

theorem State.payload_sent (s : State) (es : List WireEvent) (x : Byte) (b : BitVec 3) (t : Txn) :
    (s.sent es x b).payload t = s.payload t := by
  cases t <;> rfl

section
variable {s : State} (h : Serializing s) (t : Txn)
include h

/-- The bytes from index `k` on, `m` of them behind it. -/
theorem Serializing.bytes (m k : Nat) (hk : k + m = s.lastByte t) (hbit : s.bitcnt = 0#3) :
    Phases (33 * (m + 1)) s ⟨t, k, .b0⟩ (s.sent (bytesEvents ((s.payload t).drop k)) 0#8 0#3)
      (some ⟨t, s.lastByte t, .stop0⟩) := by
  induction m generalizing s k with
  | zero =>
    have hbyte := h.byte t k hbit
    obtain rfl : k = s.lastByte t := hk
    have hnil : (s.payload t).drop (s.lastByte t + 1) = [] := List.drop_eq_nil_iff.2 (s.payload_length t).le
    rw [if_neg (lt_irrefl _)] at hbyte
    rw [State.payload_drop (le_refl _), hnil, bytesEvents, bytesEvents, List.append_nil]
    exact hbyte
  | succ m ih =>
    have hbyte := h.byte t k hbit
    rw [if_pos (by omega)] at hbyte
    have hrest := hbyte.trans rfl (ih (h.sent _ _ _) (k + 1) (show k + 1 + m = s.lastByte t by omega) rfl)
    rw [State.payload_sent, State.sent_sent] at hrest
    rw [State.payload_drop (by omega), bytesEvents, show 33 * (m + 1 + 1) = 33 + 33 * (m + 1) by omega]
    exact hrest

/-- STOP is three phases, the last of which ends the transaction's frame (42_protocol_driver.md R85, R96). -/
theorem Serializing.stop (k : Nat) :
    Phases 3 s ⟨t, k, .stop0⟩ { s.sent stopEvents s.sh s.bitcnt with frames := s.frames ++ [s.payload t] }
      (t.after.map Txn.begin) := by
  have h0 := h.phase ⟨t, k, .stop0⟩
  rw [State.throughPhase_stop0] at h0
  have h1 := h0.trans rfl ((h.sent _ _ _).phase ⟨t, k, .stop1⟩)
  rw [State.throughPhase_stop1, State.sent_sent] at h1
  have h2 := h1.trans rfl ((h.sent _ _ _).phase ⟨t, k, .stop2⟩)
  rw [State.throughPhase_stop2, State.sent_sent, State.payload_sent] at h2
  exact h2

/-- A transaction is START, its bytes and STOP, and leaves the state that the atomic one leaves (42_protocol_driver.md R89). -/
theorem Serializing.txn :
    Phases (4 + 33 * (s.payload t).length) s t.begin (s.txn (s.payload t)) (t.after.map Txn.begin) := by
  have hstart := h.phase t.begin
  rw [Txn.begin, State.throughPhase_start0] at hstart
  have hbytes := hstart.trans rfl ((h.sent startEvents s.sh 0#3).bytes t (s.lastByte t) 0 (Nat.zero_add _) rfl)
  rw [State.payload_sent, State.sent_sent, List.drop_zero] at hbytes
  have hstop := hbytes.trans rfl ((h.sent _ _ _).stop t (s.lastByte t))
  rw [State.payload_sent, State.sent_sent] at hstop
  rw [State.payload_length, show 4 + 33 * (s.lastByte t + 1) = 1 + 33 * (s.lastByte t + 1) + 3 by omega]
  exact hstop

theorem Serializing.after_txn (bs : List Byte) : Serializing (s.txn bs) :=
  ⟨h.rst, h.busy, h.wait⟩

/-- The three transactions of a refresh cycle, one behind the other, and then the end of the operation. -/
theorem Serializing.refresh :
    Host.Core.run core ((111 + 33 * s.size) * s.params.tCycles) (s.enterPhase Txn.mode.begin) = .next s.refresh.finish := by
  have hmode := h.txn .mode
  have hdata := hmode.trans rfl ((h.after_txn _).txn .data)
  have hctrl := hdata.trans rfl (((h.after_txn _).after_txn _).txn .ctrl)
  have hcount : 4 + 33 * (s.payload .mode).length + (4 + 33 * (s.payload .data).length) + (4 + 33 * (s.payload .ctrl).length) =
      111 + 33 * s.size := by
    simp only [State.payload, List.length_cons, List.length_nil, State.cells_length]
    omega
  simp only [State.payload_txn] at hctrl
  rw [hcount] at hctrl
  exact hctrl

end

/-! ### The two clocked operations (70_reset_and_hazards.md R142, R143) -/

theorem State.refresh_with_busy (s : State) (b : Bool) :
    ({ s with busy := b } : State).refresh = { s.refresh with busy := b } := by
  simp only [State.refresh_eq, State.payload_congr (s := { s with busy := b }) (t := s) rfl rfl rfl]

/-- A refresh cycle that was run with `busy` raised from an idle state ends, when `busy` falls, where the atomic one ends. -/
theorem State.finish_refresh {s : State} (h : IdleOk s) :
    ({ s with busy := true } : State).refresh.finish = { s.refresh with inited := true } := by
  obtain ⟨hb, hs⟩ := h
  rw [State.refresh_with_busy, State.finish, ← hb, ← hs, ← s.refresh_busy, ← s.refresh_seq]

/-- From the edge that accepts it, a refresh cycle of an idle state is as many clock periods as it has waits, times `T_CYCLES`. -/
theorem run_refresh {s : State} (hv : s.params.Valid) (hr : s.rst = false) (h : IdleOk s) :
    Host.Core.run core ((111 + 33 * s.size) * s.params.tCycles) s.acceptDisplay = .next { s.refresh with inited := true } := by
  obtain ⟨_, _, _, hwait, _⟩ := hv
  rw [← State.finish_refresh h]
  exact Serializing.refresh (s := { s with busy := true }) ⟨hr, rfl, hwait⟩

/-- Settles O42: after setup `inited` is set already, so the end of the cycle is the state that DISPLAY answers. -/
theorem clockedDisplayMeetsTheAtomicOne : Obligations.ClockedDisplayMeetsTheAtomicOne := by
  intro a s hv hr hi hidle
  have hsame : ({ s.refresh with inited := true } : State) = s.refresh := by rw [← hi, ← s.refresh_inited]
  have hrun := run_refresh hv hr hidle
  rw [hsame] at hrun
  obtain ⟨_, _, _, _, hlong⟩ := hv
  refine ⟨s.refresh, exec_display_of_inited hi a, hrun, ?_⟩
  rw [Nat.mul_assoc]
  exact Nat.mul_le_mul_left _ hlong

/-- Settles O43: INIT is accepted like a DISPLAY of the state whose lines have been set up. -/
theorem clockedInitMeetsTheAtomicOne : Obligations.ClockedInitMeetsTheAtomicOne := by
  intro a s hv hr hi hidle
  exact ⟨_, exec_init_of_not_inited hi a, run_refresh (s := s.setupLines) hv hr hidle⟩

end Sys2Proof.Machine
